-- ==== Sys2Proof/Word.lean ====
section
/-! DEFINITION. The framer's data types: the byte, the logical frame, the tagged results of the operations, and the
transactions the outside world presents (spec/00_scope.md R5, R10, R13; spec/30_encoding.md R60, R65, R66). -/

namespace Sys2Proof

/-- A byte is 8 bits, unsigned (R5, D7); every datum of the block is one. -/
abbrev Byte := BitVec 8

/-- The Logical Frame (R60). `payloadChecksum` is present iff the payload is non-empty in a well-formed frame (R61 W2). -/
structure Frame where
  address : Byte
  control : Byte
  headerChecksum : Byte
  payload : List Byte
  payloadChecksum : Option Byte
  deriving DecidableEq, Repr

/-- The five error kinds (R13, R190); the numbers of the status port stand in Machine/Flags.lean. -/
inductive ErrKind where
  | headerChecksumMismatch
  | payloadChecksumMismatch
  | frameTooLarge
  | payloadTooLargeForEncode
  | frameTooShort
  deriving DecidableEq, Repr

/-- `EncodeResult = Frame(f) | Error(PayloadTooLargeForEncode)` (R13, R122). -/
inductive EncodeResult where
  | frame (f : Frame)
  | payloadTooLarge
  deriving DecidableEq, Repr

/-- `DecodeResult = Frame(f) | Error(kind)` (R13). -/
inductive DecodeResult where
  | frame (f : Frame)
  | error (k : ErrKind)
  deriving DecidableEq, Repr

/-- `RxResult = NoByteAvailable | Incomplete | Frame(f) | Error(kind)` (R13, R65). -/
inductive RxResult where
  | noByteAvailable
  | incomplete
  | frame (f : Frame)
  | error (k : ErrKind)
  deriving DecidableEq, Repr

/-- The transport's answer to `writeBytes`: `bytesWritten` or one opaque `Error` (R209, N27). -/
inductive WriteAnswer where
  | written (n : Nat)
  | error
  deriving DecidableEq, Repr

/-- What an operation returns to the host (the result column of R66). `nothing` is RX_RESET's empty result, and what
the port shows before any operation; `unit` is the answer of a STUFF or DESTUFF byte-class row: the bytes it consumes
from the scan and the bytes it emits (R72). -/
inductive Result where
  | nothing
  | bytes (b : List Byte)
  | byte (b : Byte)
  | encoded (r : EncodeResult)
  | decoded (r : DecodeResult)
  | write (a : WriteAnswer)
  | rx (r : RxResult)
  | unit (consumed : Nat) (emitted : List Byte)
  deriving DecidableEq, Repr

/-- The operand shapes of the ten operations (the operand column of R66). A frame operand is an `EncodeResult`, so that
the failed result of an ENCODE can be handed on, which R136 speaks of. -/
inductive Operands where
  | none
  | bytes (b : List Byte)
  | range (buffer : List Byte) (start length : Nat)
  | construct (type address : Byte) (payload : List Byte) (maxPayload : Nat)
  | frame (f : EncodeResult)
  deriving DecidableEq, Repr

/-- One transaction presented to the block.
`op`: the host presents a 4-bit operation-select code and the operation's operands (R66, R70).
`rx`: the line `RX b` or `RX -` of R78, one RX_STEP together with the transport's answer to its `readByte`.
`stuffUnit`, `destuffUnit`: one unit of the scan of STUFF (the byte) or DESTUFF (the bytes from the scan position on),
classified by the byte-class rows of the table (R72). -/
inductive Transaction where
  | op (select : BitVec 4) (operands : Operands)
  | rx (answer : Option Byte)
  | stuffUnit (b : Byte)
  | destuffUnit (rest : List Byte)
  deriving DecidableEq, Repr

/-- The state that changes how a received byte is read: `fs`, `fail` and `len(buf)` (R71, R77). -/
structure RxContext where
  fs : Bool
  fail : Bool
  len : Nat
  deriving DecidableEq, Repr

/-- The transition classes of a `readByte` answer (R71), each with the byte its rule uses. -/
inductive RxRow where
  | noByte
  | resync (b : Byte)
  | start
  | noise
  | finish
  | overflow (b : Byte)
  | data (b : Byte)
  | ignore (b : Byte)
  deriving DecidableEq, Repr

/-- The classes of a byte under STUFF (R90). -/
inductive StuffRow where
  | marker
  | esc
  | plain (b : Byte)
  deriving DecidableEq, Repr

/-- The classes of a byte under DESTUFF (R72); `escPair` carries the follower. -/
inductive DestuffRow where
  | escPair (follower : Byte)
  | escTail
  | literal (b : Byte)
  deriving DecidableEq, Repr

/-- Why a transaction is no instruction: its operands are not of the shape R66 gives the selected operation, or a
DESTUFF unit was asked for at the end of the scan. -/
inductive DecodeError where
  | operandShape (select : BitVec 4)
  | emptyScan
  deriving DecidableEq, Repr

end Sys2Proof
end

