-- ==== Sys2Proof/Config.lean ====
section
/-! DEFINITION. The parameter record P and the values the spec leaves to the environment (spec/00_scope.md R6 to R8,
spec/10_state.md R26, spec/60_exceptions.md R209). -/

namespace Sys2Proof

/-- The parameter record `P` (R6, R7, R8, R26): constants fixed when the instance of the block is built. `resync` is a
finite set, held as a strictly rising list so that equal sets are equal data. -/
structure Params where
  marker : Byte
  esc : Byte
  resync : List Byte
  cap : Nat
  deriving DecidableEq, Repr

/-- The parameters of the instance at reset. MARKER and ESC: PRESUMED (general knowledge, G1; log entry 1). RESYNC: R7.
CAP: DESIGN CHOICE 16, the value the spec's own vectors use; the spec leaves it open (R8, D3; log entry 1). -/
def Params.standard : Params :=
  { marker := 0x7E#8, esc := 0x7D#8, resync := [0x01#8, 0x03#8], cap := 16 }

/-- `XORMASK = 0x20`, fixed by the source, not a parameter (R6). -/
def xorMask : Byte := 0x20#8

/-- A free value: what the transport answers to a `writeBytes` for which the outside world has listed no answer
(R209, U6; log entry 5). Nothing constrains it. -/
opaque Config.freeWrite : Nat → Nat

/-- A free value: what the transport answers to a `readByte` for which the outside world has listed no answer, a byte
or none available (R208, U6; log entry 6). Nothing constrains it. -/
opaque Config.freeRead : Nat → Option Byte

end Sys2Proof
end

