-- ==== Sys2Proof/Syntax.lean ====
section
/-! DEFINITION. The instructions: one constructor for every row of spec/opcode_table.json. The first eleven are the
operations of spec/30_encoding.md R70 and the reserved codes (R76); the rest are the byte-class rows, by which RX_STEP
(R71), DESTUFF (R72) and STUFF (R90) decode one byte. -/

namespace Sys2Proof

inductive Instr where
  /-- STUFF, code 0x0 (R90). -/
  | stuff (raw : List Byte)
  /-- DESTUFF, code 0x1 (R93). -/
  | destuff (stuffed : List Byte)
  /-- CHECKSUM, code 0x2 (R110). -/
  | checksum (buffer : List Byte) (start length : Nat)
  /-- ENCODE, code 0x3 (R120). -/
  | encode (type address : Byte) (payload : List Byte) (maxPayload : Nat)
  /-- DECODE, code 0x4 (R123). -/
  | decode (destuffed : List Byte)
  /-- RAWBYTES, code 0x5 (R129). -/
  | rawbytes (f : EncodeResult)
  /-- SERIALIZE, code 0x6 (R130). -/
  | serialize (f : EncodeResult)
  /-- SEND, code 0x7 (R134). -/
  | send (f : EncodeResult)
  /-- RX_STEP, code 0x8 (R150). -/
  | rxStep
  /-- RX_RESET, code 0x9 (R168). -/
  | rxReset
  /-- RESERVED_OP, codes 0xA to 0xF (R76). -/
  | reservedOp (code : BitVec 4)
  /-- RX.RESYNC_01 (R153): class RESYNC on the byte `b`, any member of `P.RESYNC` but 0x03; with the set of this
  hardware, {0x01, 0x03}, that is 0x01 (log entry 3). -/
  | rxResync01 (b : Byte)
  /-- RX.RESYNC_03 (R153): class RESYNC on the byte 0x03. -/
  | rxResync03
  /-- RX.START (R155): the marker in Idle. -/
  | rxStart
  /-- RX.NOISE (R156): the marker in Accumulating with fewer than 2 bytes buffered. -/
  | rxNoise
  /-- RX.END (R157): the marker in Accumulating with 2 bytes or more buffered. -/
  | rxEnd
  /-- RX.OVERFLOW (R159). -/
  | rxOverflow (b : Byte)
  /-- RX.DATA (R160). -/
  | rxData (b : Byte)
  /-- RX.IGNORE (R161). -/
  | rxIgnore (b : Byte)
  /-- RX.NOBYTE (R152). -/
  | rxNobyte
  /-- DESTUFF.ESC_PAIR (R72, R93): the escape byte and its follower. -/
  | destuffEscPair (follower : Byte)
  /-- DESTUFF.ESC_TAIL (R72, R93): the escape byte at the last index. -/
  | destuffEscTail
  /-- DESTUFF.LITERAL (R72, R93). -/
  | destuffLiteral (b : Byte)
  /-- STUFF.MARKER (R90). -/
  | stuffMarker
  /-- STUFF.ESC (R90). -/
  | stuffEsc
  /-- STUFF.PLAIN (R90). -/
  | stuffPlain (b : Byte)
  deriving DecidableEq, Repr

end Sys2Proof
end

