-- ==== Sys2Proof/WellFormed.lean ====
section
/-! DEFINITION. Well-formed frames (spec/30_encoding.md R61), well-formed instructions (the host's duties of
spec/70_reset_and_hazards.md R229, R232, R236 and the ranges of the table's fields), and the condition under which a
byte-class row is the one selected (the conditions of spec/opcode_table.json, R71, R72). -/

namespace Sys2Proof

/-- W2 of R61: the payload is empty if and only if there is no payload checksum. -/
def Frame.layoutDefined (f : Frame) : Bool :=
  f.payload.isEmpty == f.payloadChecksum.isNone

/-- W1 to W3 of R61. -/
def Frame.wellFormed (f : Frame) : Bool :=
  f.headerChecksum == f.address ^^^ f.control
  && f.layoutDefined
  && (match f.payloadChecksum with
      | none => true
      | some c => c == f.payload.foldl (· ^^^ ·) 0x00#8)

/-- A frame operand RAWBYTES, SERIALIZE and SEND are defined on: no failed ENCODE (R136, U4), and a frame whose layout
is defined; wrong stored checksum values are allowed (U5). -/
def EncodeResult.usable : EncodeResult → Bool
  | .frame f => f.layoutDefined
  | .payloadTooLarge => false

/-- The checks on an instruction's own operands. -/
def Instr.wellFormed : Instr → Bool
  | .stuff _ => true
  | .destuff _ => true
  | .checksum buffer start length => decide (start + length ≤ buffer.length)
  | .encode _ _ _ _ => true
  | .decode _ => true
  | .rawbytes f => f.usable
  | .serialize f => f.usable
  | .send f => f.usable
  | .rxStep => true
  | .rxReset => true
  | .reservedOp code => decide (10 ≤ code.toNat)
  | .rxResync01 b => b != 0x03#8
  | .rxResync03 => true
  | .rxStart => true
  | .rxNoise => true
  | .rxEnd => true
  | .rxOverflow _ => true
  | .rxData _ => true
  | .rxIgnore _ => true
  | .rxNobyte => true
  | .destuffEscPair _ => true
  | .destuffEscTail => true
  | .destuffLiteral _ => true
  | .stuffMarker => true
  | .stuffEsc => true
  | .stuffPlain _ => true

/-- The condition the table gives a byte-class row, in the parameters and the state a byte is read in (R71, R72, R90).
An operation is selected by its code alone. -/
def Instr.selected (p : Params) (c : RxContext) : Instr → Bool
  | .stuff _ => true
  | .destuff _ => true
  | .checksum _ _ _ => true
  | .encode _ _ _ _ => true
  | .decode _ => true
  | .rawbytes _ => true
  | .serialize _ => true
  | .send _ => true
  | .rxStep => true
  | .rxReset => true
  | .reservedOp _ => true
  | .rxResync01 b => c.fail && p.resync.contains b
  | .rxResync03 => c.fail && p.resync.contains 0x03#8
  | .rxStart => !c.fs
  | .rxNoise => c.fs && decide (c.len < 2)
  | .rxEnd => c.fs && decide (2 ≤ c.len)
  | .rxOverflow b => b != p.marker && c.fs && decide (p.cap ≤ c.len) && !(c.fail && p.resync.contains b)
  | .rxData b => b != p.marker && c.fs && decide (c.len < p.cap) && !(c.fail && p.resync.contains b)
  | .rxIgnore b => b != p.marker && !c.fs && !(c.fail && p.resync.contains b)
  | .rxNobyte => true
  | .destuffEscPair _ => true
  | .destuffEscTail => true
  | .destuffLiteral b => b != p.esc
  | .stuffMarker => true
  | .stuffEsc => true
  | .stuffPlain b => b != p.marker && b != p.esc

end Sys2Proof
end

