-- ==== Sys2Proof/Decode.lean ====
section
/-! DEFINITION. From a transaction to an instruction and back: the operation map (spec/30_encoding.md R70), the
classification of a received byte (R71), of a byte under DESTUFF (R72) and under STUFF (R90), the encoder, and the
host's reading of an opcode-table word. -/

namespace Sys2Proof

/-- The escape transform `t(b) = b ^ 0x20`, its own inverse (R69). -/
def escapeByte (b : Byte) : Byte := b ^^^ xorMask

/-- The class of a byte under STUFF (R90, the table's STUFF rows). -/
def stuffRow (p : Params) (b : Byte) : StuffRow :=
  if b = p.marker then .marker else if b = p.esc then .esc else .plain b

/-- The class of the byte at the scan position under DESTUFF (R72); the list is the operand from that position on. -/
def destuffRow (p : Params) : List Byte → Option DestuffRow
  | [] => none
  | [b] => if b = p.esc then some .escTail else some (.literal b)
  | b :: follower :: _ => if b = p.esc then some (.escPair follower) else some (.literal b)

/-- The class of a `readByte` answer under RX_STEP: the tests of R71 in their order, after "no byte" (R152). -/
def rxRow (p : Params) (c : RxContext) : Option Byte → RxRow
  | none => .noByte
  | some b =>
    if c.fail && p.resync.contains b then .resync b
    else if b = p.marker then
      if c.fs = false then .start
      else if c.len < 2 then .noise
      else .finish
    else if c.fs then
      if p.cap ≤ c.len then .overflow b else .data b
    else .ignore b

def StuffRow.instr : StuffRow → Instr
  | .marker => .stuffMarker
  | .esc => .stuffEsc
  | .plain b => .stuffPlain b

def DestuffRow.instr : DestuffRow → Instr
  | .escPair follower => .destuffEscPair follower
  | .escTail => .destuffEscTail
  | .literal b => .destuffLiteral b

/-- Class RESYNC has two rows in the table, split by the byte (log entry 3). -/
def RxRow.instr : RxRow → Instr
  | .noByte => .rxNobyte
  | .resync b => if b = 0x03#8 then .rxResync03 else .rxResync01 b
  | .start => .rxStart
  | .noise => .rxNoise
  | .finish => .rxEnd
  | .overflow b => .rxOverflow b
  | .data b => .rxData b
  | .ignore b => .rxIgnore b

/-- The operation map of R70 with the operand shapes of R66. Codes 0xA to 0xF are the reserved row (R76), whatever
stands on the operand ports. -/
def decodeOp (select : BitVec 4) (operands : Operands) : Except DecodeError Instr :=
  match select.toNat, operands with
  | 0x0, .bytes raw => .ok (.stuff raw)
  | 0x1, .bytes stuffed => .ok (.destuff stuffed)
  | 0x2, .range buffer start length => .ok (.checksum buffer start length)
  | 0x3, .construct type address payload maxPayload => .ok (.encode type address payload maxPayload)
  | 0x4, .bytes destuffed => .ok (.decode destuffed)
  | 0x5, .frame f => .ok (.rawbytes f)
  | 0x6, .frame f => .ok (.serialize f)
  | 0x7, .frame f => .ok (.send f)
  | 0x8, .none => .ok .rxStep
  | 0x9, .none => .ok .rxReset
  | code, _ => if code < 0xA then .error (.operandShape select) else .ok (.reservedOp select)

/-- Decoding of any transaction. A received byte is decoded with the state (R71); nothing else is. -/
def decode (p : Params) (c : RxContext) : Transaction → Except DecodeError Instr
  | .op select operands => decodeOp select operands
  | .rx answer => .ok (rxRow p c answer).instr
  | .stuffUnit b => .ok (stuffRow p b).instr
  | .destuffUnit rest =>
    match destuffRow p rest with
    | some r => .ok r.instr
    | none => .error .emptyScan

/-- The transaction that stands for an instruction, from the same tables (R70, R71, R72). -/
def encode (p : Params) : Instr → Transaction
  | .stuff raw => .op 0x0#4 (.bytes raw)
  | .destuff stuffed => .op 0x1#4 (.bytes stuffed)
  | .checksum buffer start length => .op 0x2#4 (.range buffer start length)
  | .encode type address payload maxPayload => .op 0x3#4 (.construct type address payload maxPayload)
  | .decode destuffed => .op 0x4#4 (.bytes destuffed)
  | .rawbytes f => .op 0x5#4 (.frame f)
  | .serialize f => .op 0x6#4 (.frame f)
  | .send f => .op 0x7#4 (.frame f)
  | .rxStep => .op 0x8#4 .none
  | .rxReset => .op 0x9#4 .none
  | .reservedOp code => .op code .none
  | .rxResync01 b => .rx (some b)
  | .rxResync03 => .rx (some 0x03#8)
  | .rxStart => .rx (some p.marker)
  | .rxNoise => .rx (some p.marker)
  | .rxEnd => .rx (some p.marker)
  | .rxOverflow b => .rx (some b)
  | .rxData b => .rx (some b)
  | .rxIgnore b => .rx (some b)
  | .rxNobyte => .rx none
  | .destuffEscPair follower => .destuffUnit [p.esc, follower]
  | .destuffEscTail => .destuffUnit [p.esc]
  | .destuffLiteral b => .destuffUnit [b]
  | .stuffMarker => .stuffUnit p.marker
  | .stuffEsc => .stuffUnit p.esc
  | .stuffPlain b => .stuffUnit b

/-- The operands an operation gets where the table's word gives none: empty sequences, zero bytes and numbers, the
all-zero control frame (V44 calls it valid). -/
def zeroOperands (select : BitVec 4) : Operands :=
  match select.toNat with
  | 0x0 => .bytes []
  | 0x1 => .bytes []
  | 0x2 => .range [] 0 0
  | 0x3 => .construct 0x00#8 0x00#8 [] 0
  | 0x4 => .bytes []
  | 0x5 => .frame (.frame ⟨0x00#8, 0x00#8, 0x00#8, [], none⟩)
  | 0x6 => .frame (.frame ⟨0x00#8, 0x00#8, 0x00#8, [], none⟩)
  | 0x7 => .frame (.frame ⟨0x00#8, 0x00#8, 0x00#8, [], none⟩)
  | _ => .none

/-- The transaction an opcode-table word stands for. The table's words are for three different ports and the word does
not say which. DESIGN CHOICE (log entry 4): a first byte below 0x10 is an operation-select code; the escape byte is a
DESTUFF unit with the next byte as its follower; any other byte is a byte received by RX_STEP. -/
def tableTransaction (nbits w : Nat) : Option Transaction :=
  let first := w % 256
  let above := w / 256
  if nbits = 0 then none
  else if BitVec.ofNat 8 first = Params.standard.esc then
    if above < 256 then some (.destuffUnit [BitVec.ofNat 8 first, BitVec.ofNat 8 above]) else none
  else if above ≠ 0 then none
  else if first < 16 then some (.op (BitVec.ofNat 4 first) (zeroOperands (BitVec.ofNat 4 first)))
  else some (.rx (some (BitVec.ofNat 8 first)))

/-- The instruction the decoder reads from an opcode-table word, with the standard parameters (the table's matches are
for those) and in the state after reset. -/
def decodeTableWord (nbits w : Nat) : Option Instr :=
  match tableTransaction nbits w with
  | none => none
  | some t =>
    match decode Params.standard ⟨false, false, 0⟩ t with
    | .ok i => some i
    | .error _ => none

end Sys2Proof
end

