-- ==== Sys2Proof/Machine/State.lean ====
section
/-! DEFINITION. The state of one instance of the block with what its two environment parties have prepared for it
(spec/10_state.md R20 to R33, spec/20_memory.md R40 to R43), the reasons a step can stop, and the state after reset. -/

namespace Sys2Proof.Machine

/-- The raw frame buffer's contents: the bytes at indices `0 .. len(buf)-1` in order (R21, R40). -/
abbrev Memory := List Byte

/-- What the last operation returned (R66): its result, whether it emitted the `LogCritical` event (R122, R211), and
the `writeBytes(buffer, length)` call it made, if any (R134). Each operation replaces all three: nothing is queued
(R197, R230). -/
structure Output where
  result : Result
  logCritical : Bool
  write : Option (List Byte × Nat)
  deriving DecidableEq, Repr

structure State where
  /-- The parameter record `P` of this instance, constant (R26). -/
  params : Params
  /-- frameStarted: false is Idle, true is Accumulating (R22). -/
  fs : Bool
  /-- lastChecksumFailed (R23). -/
  fail : Bool
  /-- The raw frame buffer, stuffed bytes as received (R21). -/
  buf : Memory
  /-- The host's transactions not yet performed, the next one first (R33, R51). -/
  requests : List Transaction
  /-- The transport's answers to the coming `readByte` calls, the next one first; `none` is `available = false`
  (R208). -/
  rx : List (Option Byte)
  /-- The transport's answers to the coming `writeBytes` calls, the next one first (R209). -/
  wr : List WriteAnswer
  /-- The transmit stream: what successful `writeBytes` calls accepted (R42). -/
  tx : List Byte
  /-- How many free answers of the transport have been drawn; the model's own (log entries 5 and 6). -/
  free : Nat
  /-- The result port. -/
  out : Output
  deriving DecidableEq, Repr

/-- Nothing the block does stops it with a fault: "No error in this core terminates the process" (R203); its errors are
values of the result port (R200). So there is no fault reason. -/
inductive Fault where
  deriving DecidableEq, Repr

/-- The reasons a step has no meaning. All are safe: the model stops where the spec gives no effect. -/
inductive Refusal where
  /-- An instruction exec does not give a meaning; raised by no arm. Safe. -/
  | notModelled (mnemonic : String)
  /-- Raised by step when `P` violates R6 to R8: "a model refuses to build the instance" (R225, D6). Safe. -/
  | invalidParameters
  /-- Raised by step when a transaction is no instruction: operands not of the operation's signature (R66). Safe. -/
  | undecodable (e : DecodeError)
  /-- Raised by CHECKSUM for `start + length > len(buffer)` (R112, U3). Safe. -/
  | checksumOutOfRange
  /-- Raised by RAWBYTES, SERIALIZE and SEND on the result of a failed ENCODE (R136, U4). Safe. -/
  | failedEncodeOperand
  /-- Raised by RAWBYTES, SERIALIZE and SEND on a frame violating W2 (R129, U5). Safe. -/
  | frameLayoutUndefined
  /-- Raised by SEND when the listed answer is `bytesWritten > length`, which the transport is assumed never to give
  (R236, U9). Safe. -/
  | writeAnswerOutOfRange
  /-- Raised by a byte-class row's meaning in a state in which R71, R72 or R90 selects another row. Step never raises
  it. Safe. -/
  | rowNotSelected
  /-- Raised by the reserved operation codes (R76, U10). Safe. -/
  | reservedOperation (code : BitVec 4)
  /-- Raised by a bank of instances when the number names none of them (R170). Safe. -/
  | noSuchInstance
  deriving DecidableEq, Repr

/-- The state after power-on (R32, R220): Idle, empty, flag clear. The parameters have no reset behaviour (R32); their
values here are those of log entry 1. The host has invoked nothing and the transport has answered nothing (log entry
2). `free` is DESIGN CHOICE 0 (log entry 5). -/
def State.reset : State :=
  { params := Params.standard
    fs := false
    fail := false
    buf := []
    requests := []
    rx := []
    wr := []
    tx := []
    free := 0
    out := { result := .nothing, logCritical := false, write := none } }

end Sys2Proof.Machine
end

