-- ==== Sys2Proof/Machine/Ops.lean ====
section
/-! DEFINITION. The shared operations over the state: the parameter check, the buffer, the result port, the start and
the end of a frame, the two transport primitives and the fetch of the next transaction. -/

namespace Sys2Proof

/-- The constraints of R6 to R8: `MARKER != ESC`, `(MARKER ^ ESC) != 0x20`, `MARKER ∉ RESYNC`, `CAP >= 3`, and the
canonical form of the set RESYNC (log entry 1). -/
def Params.valid (p : Params) : Bool :=
  p.marker != p.esc
  && p.marker ^^^ p.esc != xorMask
  && !p.resync.contains p.marker
  && decide (p.resync.Pairwise (fun a b => a.toNat < b.toNat))
  && decide (3 ≤ p.cap)

namespace Machine

/-- The form the buffer keeps: at most `P.CAP` bytes (R21). A list of bytes is already canonical: equal contents are
equal data. -/
def Memory.wf (cap : Nat) (m : Memory) : Bool := decide (m.length ≤ cap)

/-- The read of one byte; an index at or beyond `len(buf)` holds no byte (R21, R46). -/
def Memory.read (m : Memory) (a : Nat) : Option Byte := m[a]?

/-- "Append one byte at index `len(buf)`" (R40). -/
def Memory.append (m : Memory) (b : Byte) : Memory := m ++ [b]

/-- The buffer as address and byte pairs, addresses strictly rising from 0. -/
def Memory.cells (m : Memory) : List Host.Cell := m.zipIdx.map (fun c => (c.2, c.1))

/-- The state a received byte is read in (R71, R77). -/
def State.rxContext (s : State) : RxContext := ⟨s.fs, s.fail, s.buf.length⟩

/-- An operation ends with a result (R12), and no event or transport call beside it. -/
def State.answer (s : State) (r : Result) : State :=
  { s with out := { result := r, logCritical := false, write := none } }

/-- An operation ends with a result and the `LogCritical` event (R122). -/
def State.answerLogged (s : State) (r : Result) : State :=
  { s with out := { result := r, logCritical := true, write := none } }

/-- A frame attempt begins: Accumulating, the buffer replaced, the failure flag cleared. R155 begins with nothing, R153
with the resync byte. This is the return from an error: how the stream gets back in step (R204). -/
def State.beginFrame (s : State) (seed : Memory) : State :=
  { s with fs := true, buf := seed, fail := false }

/-- A frame attempt ends: Idle, the buffer cleared, the failure flag as given. With `true` it is what a decode error
does to the state, this block's form of taking an exception (R157, R200, R201); with `false` the end of a good frame
(R157) and RX_RESET (R168). -/
def State.endFrame (s : State) (failed : Bool) : State :=
  { s with fs := false, buf := [], fail := failed }

/-- A received byte is appended (R160). -/
def State.store (s : State) (b : Byte) : State :=
  { s with buf := s.buf.append b }

/-- `readByte()` (R208): the transport's next listed answer, which is thereby consumed (R49), or, where none is listed,
a free one (log entry 6). -/
def readByte (s : State) : Option Byte × State :=
  match s.rx with
  | [] => (Config.freeRead s.free, { s with free := s.free + 1 })
  | a :: rest => (a, { s with rx := rest })

/-- A free answer of the transport to `writeBytes` of `length` bytes: any count up to the length, or Error (R209).
DESIGN CHOICE: the free answers of all instances are drawn from one constant, so two instances whose counters are equal
draw equal answers, which R210 does not say (log entry 27). -/
def freeWriteAnswer (index length : Nat) : WriteAnswer :=
  if Config.freeWrite index ≤ length then .written (Config.freeWrite index) else .error

/-- The answer is one `writeBytes` may give: `bytesWritten <= length`, or Error (R209, U9). -/
def writeAnswerAllowed (length : Nat) : WriteAnswer → Bool
  | .written n => decide (n ≤ length)
  | .error => true

/-- The bytes a `writeBytes` call adds to the transmit stream: those a successful call accepted, the first
`bytesWritten` of the buffer (R42; log entry 7). -/
def acceptedBytes (w : List Byte) : WriteAnswer → List Byte
  | .written n => w.take n
  | .error => []

/-- The state after one `writeBytes(w, len(w))` call answered `a`: the transmit stream grows, and the answer goes to
the host unchanged (R134, R135). -/
def State.wrote (s : State) (w : List Byte) (a : WriteAnswer) : State :=
  { s with
    tx := s.tx ++ acceptedBytes w a
    out := { result := .write a, logCritical := false, write := some (w, w.length) } }

/-- `writeBytes(w, len(w))` (R209): the transport's next listed answer, or a free one when none is listed. -/
def writeBytes (w : List Byte) (s : State) : Host.Outcome State Fault Refusal :=
  match s.wr with
  | [] => .next (State.wrote { s with free := s.free + 1 } w (freeWriteAnswer s.free w.length))
  | a :: rest =>
    if writeAnswerAllowed w.length a then .next (State.wrote { s with wr := rest } w a)
    else .refused .writeAnswerOutOfRange

/-- The host's next transaction, and the state without it. -/
def fetch (s : State) : Option (Transaction × State) :=
  match s.requests with
  | [] => none
  | t :: rest => some (t, { s with requests := rest })

/-- The host presents a transaction before those it has already prepared. -/
def State.present (s : State) (t : Transaction) : State :=
  { s with requests := t :: s.requests }

end Machine

end Sys2Proof
end

