-- ==== Sys2Proof/Machine/Operands.lean ====
section
/-! DEFINITION. The operand forms: the byte range of CHECKSUM and its XOR, and the frame operand of RAWBYTES, SERIALIZE
and SEND (spec/00_scope.md R11; spec/42_checksum.md R110; spec/43_frame_codec.md R129, R136). -/

namespace Sys2Proof.Machine

/-- `XOR(s)`: an accumulator cleared to 0x00 takes each byte in index order (R11, R27, R110). -/
def xorBytes (s : List Byte) : Byte := s.foldl (· ^^^ ·) 0x00#8

/-- `buffer[start .. start+length)`, for a range in bounds (R11). -/
def byteRange (buffer : List Byte) (start length : Nat) : List Byte :=
  (buffer.drop start).take length

/-- The precondition of CHECKSUM: `start + length <= len(buffer)` (R46, R110). -/
def rangeInBounds (buffer : List Byte) (start length : Nat) : Bool :=
  decide (start + length ≤ buffer.length)

/-- CHECKSUM's value on a range in bounds (R110). -/
def checksumOf (buffer : List Byte) (start length : Nat) : Byte :=
  xorBytes (byteRange buffer start length)

/-- A frame operand: the failed result of an ENCODE and a frame violating W2 are refused (R129, R136, U4, U5); any
other frame goes on. -/
def withFrame (f : EncodeResult) (k : Frame → Host.Outcome State Fault Refusal) : Host.Outcome State Fault Refusal :=
  match f with
  | .payloadTooLarge => .refused .failedEncodeOperand
  | .frame g => if g.layoutDefined then k g else .refused .frameLayoutUndefined

end Sys2Proof.Machine
end

