-- ==== Sys2Proof/Machine/Flags.lean ====
section
/-! DEFINITION. The failure flag's rule, and the codes of the hardware status port (spec/10_state.md R21, R28;
spec/30_encoding.md R65; spec/43_frame_codec.md R122; spec/60_exceptions.md R190). -/

namespace Sys2Proof

/-- `r is Error(_)`: the value the end marker writes to `fail` (R157, R28). -/
def DecodeResult.isError : DecodeResult → Bool
  | .frame _ => false
  | .error _ => true

/-- `DecodeResult` maps to `RxResult` by name (R158). -/
def DecodeResult.toRx : DecodeResult → RxResult
  | .frame f => .frame f
  | .error k => .error k

/-- `status[1:0]` (R65, D21). -/
def RxResult.status : RxResult → BitVec 2
  | .noByteAvailable => 0b00
  | .incomplete => 0b01
  | .frame _ => 0b10
  | .error _ => 0b11

/-- The 3-bit `errkind` codes (R190, D21). -/
def ErrKind.code : ErrKind → BitVec 3
  | .headerChecksumMismatch => 1
  | .payloadChecksumMismatch => 2
  | .frameTooLarge => 3
  | .payloadTooLargeForEncode => 4
  | .frameTooShort => 5

/-- The error kind of a failed ENCODE (R13, R122). -/
def EncodeResult.errKind : EncodeResult → Option ErrKind
  | .frame _ => none
  | .payloadTooLarge => some .payloadTooLargeForEncode

/-- The Frame-shaped record of ENCODE's result and its `valid` bit, which is the sentinel (R122, D11, U14). -/
def EncodeResult.record : EncodeResult → Bool × Frame
  | .frame f => (true, f)
  | .payloadTooLarge => (false, ⟨0x00#8, 0x00#8, 0x00#8, [], none⟩)

namespace Machine

/-- The `status` bits while the result port holds an RX_STEP result (R65). -/
def State.statusPort (s : State) : Option (BitVec 2) :=
  match s.out.result with
  | .rx r => some r.status
  | _ => none

/-- The `errkind` bits, given when the result port holds an `Error(kind)` of RX_STEP (R65). -/
def State.errkindPort (s : State) : Option (BitVec 3) :=
  match s.out.result with
  | .rx (.error k) => some k.code
  | _ => none

/-- The width of the length counter of a hardware `buf`: `ceil(log2(P.CAP + 1))` bits (R21). -/
def lenWidth (p : Params) : Nat := Nat.clog 2 (p.cap + 1)

end Machine

end Sys2Proof
end

