-- ==== Sys2Proof/Machine/Checksum.lean ====
section
/-! DEFINITION. CHECKSUM (spec/42_checksum.md). Pure: only the result port is written (R20, R24). -/

namespace Sys2Proof.Machine

/-- CHECKSUM (R110); out of range it is refused (R112, U3). -/
def execChecksum (buffer : List Byte) (start length : Nat) (s : State) : Host.Outcome State Fault Refusal :=
  if rangeInBounds buffer start length then .next (s.answer (.byte (checksumOf buffer start length)))
  else .refused .checksumOutOfRange

end Sys2Proof.Machine
end

