-- ==== Sys2Proof/Machine/Stuffing.lean ====
section
/-! DEFINITION. The byte-stuffing codec: STUFF, DESTUFF and their byte-class rows (spec/41_stuffing.md). Pure: only the
result port is written (R20, R24). -/

namespace Sys2Proof.Machine

/-- What a STUFF row emits (R90). -/
def StuffRow.emits (p : Params) : StuffRow → List Byte
  | .marker => [p.esc, escapeByte p.marker]
  | .esc => [p.esc, escapeByte p.esc]
  | .plain b => [b]

/-- STUFF's loop (R90): each byte is judged alone, in index order. -/
def stuffBytes (p : Params) : List Byte → List Byte
  | [] => []
  | b :: rest => StuffRow.emits p (stuffRow p b) ++ stuffBytes p rest

/-- How many bytes a DESTUFF row consumes (R72). -/
def DestuffRow.consumes : DestuffRow → Nat
  | .escPair _ => 2
  | .escTail => 1
  | .literal _ => 1

/-- What a DESTUFF row emits (R72, R93). -/
def DestuffRow.emits : DestuffRow → List Byte
  | .escPair follower => [escapeByte follower]
  | .escTail => []
  | .literal b => [b]

/-- DESTUFF's loop (R93): a follower is never itself classified, and a trailing escape is dropped. -/
def destuffBytes (p : Params) : List Byte → List Byte
  | [] => []
  | [b] => if b = p.esc then [] else [b]
  | b :: follower :: rest =>
    if b = p.esc then escapeByte follower :: destuffBytes p rest
    else b :: destuffBytes p (follower :: rest)

/-- One byte of the streaming form of DESTUFF (R95): the transient `esc_pending` and what has been emitted. -/
def destuffStreamByte (p : Params) (st : Bool × List Byte) (c : Byte) : Bool × List Byte :=
  if st.1 then (false, st.2 ++ [escapeByte c])
  else if c = p.esc then (true, st.2)
  else (false, st.2 ++ [c])

/-- The streaming form of DESTUFF (R95): a pending escape at the end of the input is dropped. -/
def destuffStream (p : Params) (s : List Byte) : List Byte :=
  (s.foldl (destuffStreamByte p) (false, [])).2

/-- STUFF (R90). -/
def execStuff (raw : List Byte) (s : State) : Host.Outcome State Fault Refusal :=
  .next (s.answer (.bytes (stuffBytes s.params raw)))

/-- DESTUFF (R93). -/
def execDestuff (stuffed : List Byte) (s : State) : Host.Outcome State Fault Refusal :=
  .next (s.answer (.bytes (destuffBytes s.params stuffed)))

/-- One unit of STUFF's scan, for the row that R90 selects for the byte. -/
def stuffUnit (row : StuffRow) (b : Byte) (s : State) : Host.Outcome State Fault Refusal :=
  if stuffRow s.params b = row then .next (s.answer (.unit 1 (StuffRow.emits s.params row)))
  else .refused .rowNotSelected

/-- One unit of DESTUFF's scan, for the row that R72 selects at the scan position. -/
def destuffUnit (row : DestuffRow) (scan : List Byte) (s : State) : Host.Outcome State Fault Refusal :=
  if destuffRow s.params scan = some row then
    .next (s.answer (.unit (DestuffRow.consumes row) (DestuffRow.emits row)))
  else .refused .rowNotSelected

/-- STUFF.MARKER: `x[i] == P.MARKER: emit P.ESC, x[i] ^ 0x20` (R90). -/
def execStuffMarker (s : State) : Host.Outcome State Fault Refusal :=
  stuffUnit .marker s.params.marker s

/-- STUFF.ESC: `x[i] == P.ESC: emit P.ESC, x[i] ^ 0x20` (R90). -/
def execStuffEsc (s : State) : Host.Outcome State Fault Refusal :=
  stuffUnit .esc s.params.esc s

/-- STUFF.PLAIN: `otherwise: emit x[i]` (R90). -/
def execStuffPlain (b : Byte) (s : State) : Host.Outcome State Fault Refusal :=
  stuffUnit (.plain b) b s

/-- DESTUFF.ESC_PAIR: `consume 2, emit s[i+1] ^ 0x20` (R72, R93). -/
def execDestuffEscPair (follower : Byte) (s : State) : Host.Outcome State Fault Refusal :=
  destuffUnit (.escPair follower) [s.params.esc, follower] s

/-- DESTUFF.ESC_TAIL: `consume 1, emit nothing` (R72, R93). -/
def execDestuffEscTail (s : State) : Host.Outcome State Fault Refusal :=
  destuffUnit .escTail [s.params.esc] s

/-- DESTUFF.LITERAL: `s[i] != P.ESC: consume 1, emit s[i]` (R72, R93). -/
def execDestuffLiteral (b : Byte) (s : State) : Host.Outcome State Fault Refusal :=
  destuffUnit (.literal b) [b] s

end Sys2Proof.Machine
end

