-- ==== Sys2Proof/Machine/FrameCodec.lean ====
section
/-! DEFINITION. The frame codec: ENCODE, DECODE, RAWBYTES, SERIALIZE and SEND (spec/43_frame_codec.md). None touches
`fs`, `buf` or `fail`. -/

namespace Sys2Proof.Machine

/-- The frame ENCODE builds when the payload fits (R120, R121). -/
def buildFrame (type address : Byte) (payload : List Byte) : Frame :=
  { address := address
    control := type
    headerChecksum := address ^^^ type
    payload := payload
    payloadChecksum := if payload.length = 0 then none else some (checksumOf payload 0 payload.length) }

/-- DECODE's value (R123), test by test: too short, header, control frame, payload. -/
def decodeBytes (d : List Byte) : DecodeResult :=
  match d with
  | a :: c :: h :: tail =>
    if h ≠ a ^^^ c then .error .headerChecksumMismatch
    else
      match tail.getLast? with
      | none => .frame ⟨a, c, h, [], none⟩
      | some k =>
        let n := d.length - 4
        if checksumOf d 3 n ≠ k then .error .payloadChecksumMismatch
        else if n = 0 then .frame ⟨a, c, h, [], none⟩
        else .frame ⟨a, c, h, byteRange d 3 n, some k⟩
  | _ => .error .frameTooShort

/-- RAWBYTES' value (R62, R129): the stored checksums are emitted, not recomputed. -/
def rawBytes (f : Frame) : List Byte :=
  [f.address, f.control, f.headerChecksum]
  ++ (if f.payload.length ≠ 0 then f.payload ++ f.payloadChecksum.toList else [])

/-- SERIALIZE's value, the wire form (R63, R130): the two structural markers are never stuffed. -/
def wireBytes (p : Params) (f : Frame) : List Byte :=
  [p.marker] ++ stuffBytes p (rawBytes f) ++ [p.marker]

/-- ENCODE (R120): a payload longer than `maxPayload` fails and is logged as critical (R122). -/
def execEncode (type address : Byte) (payload : List Byte) (maxPayload : Nat) (s : State) :
    Host.Outcome State Fault Refusal :=
  if payload.length > maxPayload then .next (s.answerLogged (.encoded .payloadTooLarge))
  else .next (s.answer (.encoded (.frame (buildFrame type address payload))))

/-- DECODE (R123). A failing stand-alone DECODE does not set `fail` (R28, R201). -/
def execDecode (destuffed : List Byte) (s : State) : Host.Outcome State Fault Refusal :=
  .next (s.answer (.decoded (decodeBytes destuffed)))

/-- RAWBYTES (R129). -/
def execRawbytes (f : EncodeResult) (s : State) : Host.Outcome State Fault Refusal :=
  withFrame f (fun g => .next (s.answer (.bytes (rawBytes g))))

/-- SERIALIZE (R130). -/
def execSerialize (f : EncodeResult) (s : State) : Host.Outcome State Fault Refusal :=
  withFrame f (fun g => .next (s.answer (.bytes (wireBytes s.params g))))

/-- SEND (R134): one `writeBytes` of the whole wire frame. -/
def execSend (f : EncodeResult) (s : State) : Host.Outcome State Fault Refusal :=
  withFrame f (fun g => writeBytes (wireBytes s.params g) s)

end Sys2Proof.Machine
end

