-- ==== Sys2Proof/Machine/Reassembler.lean ====
section
/-! DEFINITION. The stream reassembler: RX_STEP, its transition rows and RX_RESET (spec/44_reassembler.md). These are
the only operations that touch `fs`, `buf` and `fail` (R24). -/

namespace Sys2Proof.Machine

/-- What the end marker computes from the buffer (R157, R79's DECODEWIRE). -/
def decodeWire (p : Params) (s : List Byte) : DecodeResult := decodeBytes (destuffBytes p s)

/-- The transition of a row, in the state its byte is read in: R152, R153, R155, R156, R157, R159, R160, R161. -/
def takeRow (row : RxRow) (s : State) : State :=
  match row with
  | .noByte => s.answer (.rx .noByteAvailable)
  | .resync b => (s.beginFrame [b]).answer (.rx .incomplete)
  | .start => (s.beginFrame []).answer (.rx .incomplete)
  | .noise => s.answer (.rx .incomplete)
  | .finish => (s.endFrame (decodeWire s.params s.buf).isError).answer (.rx (decodeWire s.params s.buf).toRx)
  | .overflow _ => s.answer (.rx (.error .frameTooLarge))
  | .data b => (s.store b).answer (.rx .incomplete)
  | .ignore _ => s.answer (.rx .incomplete)

/-- RX_STEP on a given answer of the transport: classify, then take the row's transition (R151). -/
def rxTransition (answer : Option Byte) (s : State) : State :=
  takeRow (rxRow s.params s.rxContext answer) s

/-- A row's own meaning: its transition, in the states in which R71 selects it for the answer. -/
def rxUnit (row : RxRow) (answer : Option Byte) (s : State) : Host.Outcome State Fault Refusal :=
  if rxRow s.params s.rxContext answer = row then .next (takeRow row s)
  else .refused .rowNotSelected

/-- RX_STEP (R150, R151): one `readByte`, then the transition. -/
def execRxStep (s : State) : Host.Outcome State Fault Refusal :=
  .next (rxTransition (readByte s).1 (readByte s).2)

/-- RX_RESET (R168). It consumes no transport byte and returns nothing. -/
def execRxReset (s : State) : Host.Outcome State Fault Refusal :=
  .next ((s.endFrame false).answer .nothing)

/-- RX.RESYNC_01 (R153): `fail == true and b in P.RESYNC`. -/
def execRxResync01 (b : Byte) (s : State) : Host.Outcome State Fault Refusal :=
  rxUnit (.resync b) (some b) s

/-- RX.RESYNC_03 (R153), on 0x03. -/
def execRxResync03 (s : State) : Host.Outcome State Fault Refusal :=
  rxUnit (.resync 0x03#8) (some 0x03#8) s

/-- RX.START (R155): `b == P.MARKER and fs == false`. -/
def execRxStart (s : State) : Host.Outcome State Fault Refusal :=
  rxUnit .start (some s.params.marker) s

/-- RX.NOISE (R156): `b == P.MARKER and fs == true and len(buf) < 2`. -/
def execRxNoise (s : State) : Host.Outcome State Fault Refusal :=
  rxUnit .noise (some s.params.marker) s

/-- RX.END (R157): `b == P.MARKER and fs == true and len(buf) >= 2`. -/
def execRxEnd (s : State) : Host.Outcome State Fault Refusal :=
  rxUnit .finish (some s.params.marker) s

/-- RX.OVERFLOW (R159): `b != P.MARKER and fs == true and len(buf) >= P.CAP (and not class RESYNC)`. -/
def execRxOverflow (b : Byte) (s : State) : Host.Outcome State Fault Refusal :=
  rxUnit (.overflow b) (some b) s

/-- RX.DATA (R160): `b != P.MARKER and fs == true and len(buf) < P.CAP (and not class RESYNC)`. -/
def execRxData (b : Byte) (s : State) : Host.Outcome State Fault Refusal :=
  rxUnit (.data b) (some b) s

/-- RX.IGNORE (R161): `b != P.MARKER and fs == false (and not class RESYNC)`. -/
def execRxIgnore (b : Byte) (s : State) : Host.Outcome State Fault Refusal :=
  rxUnit (.ignore b) (some b) s

/-- RX.NOBYTE (R152): `readByte answered 'no byte available'`. -/
def execRxNobyte (s : State) : Host.Outcome State Fault Refusal :=
  rxUnit .noByte none s

end Sys2Proof.Machine
end

