-- ==== Sys2Proof/Machine/Reserved.lean ====
section
/-! DEFINITION. The reserved operation codes (spec/30_encoding.md R76). -/

namespace Sys2Proof.Machine

/-- RESERVED_OP: "Codes 0xA to 0xF of rule R70 select no operation; a model refuses them" (R76, U10). -/
def execReservedOp (code : BitVec 4) (_s : State) : Host.Outcome State Fault Refusal :=
  .refused (.reservedOperation code)

end Sys2Proof.Machine
end

