-- ==== Sys2Proof/Machine/Dispatch.lean ====
section
/-! DEFINITION. One arm per constructor of Instr. -/

namespace Sys2Proof.Machine

def exec (i : Instr) (s : State) : Host.Outcome State Fault Refusal :=
  match i with
  | .stuff raw => Sys2Proof.Machine.execStuff raw s
  | .destuff stuffed => Sys2Proof.Machine.execDestuff stuffed s
  | .checksum buffer start length => Sys2Proof.Machine.execChecksum buffer start length s
  | .encode type address payload maxPayload => Sys2Proof.Machine.execEncode type address payload maxPayload s
  | .decode destuffed => Sys2Proof.Machine.execDecode destuffed s
  | .rawbytes f => Sys2Proof.Machine.execRawbytes f s
  | .serialize f => Sys2Proof.Machine.execSerialize f s
  | .send f => Sys2Proof.Machine.execSend f s
  | .rxStep => Sys2Proof.Machine.execRxStep s
  | .rxReset => Sys2Proof.Machine.execRxReset s
  | .reservedOp code => Sys2Proof.Machine.execReservedOp code s
  | .rxResync01 b => Sys2Proof.Machine.execRxResync01 b s
  | .rxResync03 => Sys2Proof.Machine.execRxResync03 s
  | .rxStart => Sys2Proof.Machine.execRxStart s
  | .rxNoise => Sys2Proof.Machine.execRxNoise s
  | .rxEnd => Sys2Proof.Machine.execRxEnd s
  | .rxOverflow b => Sys2Proof.Machine.execRxOverflow b s
  | .rxData b => Sys2Proof.Machine.execRxData b s
  | .rxIgnore b => Sys2Proof.Machine.execRxIgnore b s
  | .rxNobyte => Sys2Proof.Machine.execRxNobyte s
  | .destuffEscPair follower => Sys2Proof.Machine.execDestuffEscPair follower s
  | .destuffEscTail => Sys2Proof.Machine.execDestuffEscTail s
  | .destuffLiteral b => Sys2Proof.Machine.execDestuffLiteral b s
  | .stuffMarker => Sys2Proof.Machine.execStuffMarker s
  | .stuffEsc => Sys2Proof.Machine.execStuffEsc s
  | .stuffPlain b => Sys2Proof.Machine.execStuffPlain b s

end Sys2Proof.Machine
end

