-- ==== Sys2Proof/Machine/Step.lean ====
section
/-! DEFINITION. One step of the machine: the host's next operation, whole and atomic (spec/20_memory.md R48, R51). -/

namespace Sys2Proof.Machine

/-- An instance with invalid parameters is refused (R225). With no operation invoked nothing happens: the block "acts
only when the host invokes an operation" (R212, R224). Otherwise the host's next transaction is decoded and run. -/
def step (s : State) : Host.Outcome State Fault Refusal :=
  if s.params.valid then
    match fetch s with
    | none => .next s
    | some (t, rest) =>
      match decode rest.params rest.rxContext t with
      | .ok i => exec i rest
      | .error e => .refused (.undecodable e)
  else .refused .invalidParameters

/-- The transaction of an opcode-table word presented as the host's next one (log entries 2 and 4). -/
def State.withFetchWord (s : State) (nbits w : Nat) : State :=
  match tableTransaction nbits w with
  | none => s
  | some t => s.present t

end Sys2Proof.Machine
end

