-- ==== Sys2Proof/Machine/Instances.lean ====
section
/-! DEFINITION. Several streams: one instance of the block, with its own state, parameters and transport, for each
(spec/44_reassembler.md R170, spec/60_exceptions.md R210). -/

namespace Sys2Proof.Machine

/-- A platform's instances; an instance needs no identifier but its place (R210). -/
abbrev Bank := List State

/-- One step of instance `k`; nothing of any other instance takes part. -/
def Bank.step (bank : Bank) (k : Nat) : Host.Outcome Bank Fault Refusal :=
  match bank[k]? with
  | none => .refused .noSuchInstance
  | some s =>
    match Sys2Proof.Machine.step s with
    | .next t => .next (bank.set k t)
    | .fault r => .fault r
    | .refused r => .refused r

end Sys2Proof.Machine
end

