-- ==== Sys2Proof/Machine/Pseudo.lean ====
section
/-! DEFINITION. The pseudo-operations of spec/30_encoding.md R79, each an expansion into transactions. `SEND f` is an
operation of its own (Machine/FrameCodec.lean) and DECODEWIRE is `decodeWire` (Machine/Reassembler.lean). -/

namespace Sys2Proof.Machine

/-- `FEED [b0 b1 ... bn]` = `RX b0; RX b1; ...; RX bn`; an answer `none` is the line `RX -`. -/
def feed (answers : List (Option Byte)) : List Transaction := answers.map Transaction.rx

/-- `serializePayloadPortion(f)` = `RAWBYTES f`. -/
def serializePayloadPortion (f : Frame) : List Transaction := [.op 0x5#4 (.frame (.frame f))]

/-- `LOOPBACK f` = `FEED (SERIALIZE f)`. DESIGN CHOICE: on a frame violating W2, of which R79 says nothing, there is no
expansion, because SERIALIZE is refused there (U5; log entry 28). -/
def loopback (p : Params) (f : Frame) : Option (List Transaction) :=
  if f.layoutDefined then some (feed ((wireBytes p f).map some)) else none

/-- The host prepares these transactions before those it has already prepared. -/
def State.presentAll (s : State) (ts : List Transaction) : State :=
  { s with requests := ts ++ s.requests }

end Sys2Proof.Machine
end

