-- ==== Sys2Proof/Safety.lean ====
section
/-! DEFINITION. What counts as a safe run: the invariants of spec/10_state.md R31, and the words the statements use for
what an operation touches (R24, spec/20_memory.md R43). -/

namespace Sys2Proof

/-- The receive side of the block: RX_STEP, RX_RESET and RX_STEP's rows. No other instruction touches state (R24). -/
def Instr.receives : Instr → Bool
  | .rxStep | .rxReset | .rxResync01 _ | .rxResync03 | .rxStart | .rxNoise | .rxEnd | .rxOverflow _ | .rxData _
  | .rxIgnore _ | .rxNobyte => true
  | .stuff _ | .destuff _ | .checksum _ _ _ | .encode _ _ _ _ | .decode _ | .rawbytes _ | .serialize _ | .send _
  | .reservedOp _ | .destuffEscPair _ | .destuffEscTail | .destuffLiteral _ | .stuffMarker | .stuffEsc
  | .stuffPlain _ => false

namespace Machine

/-- The invariants of R31 with the parameter constraints they rest on (R225): (I-a) `len(buf) <= P.CAP`; (I-b)
`fs == false` implies `buf == []`; (I-c) `fs == true` implies `fail == false`; (I-d) no byte of `buf` is the marker. -/
abbrev State.Inv (s : State) : Prop :=
  s.params.valid = true
  ∧ Memory.wf s.params.cap s.buf = true
  ∧ (s.fs = false → s.buf = [])
  ∧ (s.fs = true → s.fail = false)
  ∧ s.params.marker ∉ s.buf

/-- `fs`, `fail` and every byte of `buf` read the same. -/
def SameReassembler (s t : State) : Prop :=
  t.fs = s.fs ∧ t.fail = s.fail ∧ ∀ a, Memory.read t.buf a = Memory.read s.buf a

end Machine

end Sys2Proof
end

