-- ==== Sys2Proof/Certificates/Slice0/Obligations.lean ====
section
/-! DEFINITION. The statements for the provers. A statement whose conclusion is `exec i s = .next { s with … }` says at
once that the instruction completes, what its result is, and that everything not named is unchanged. -/

open Sys2Proof Sys2Proof.Machine

/-! ## Stuffing (spec/41_stuffing.md) -/

/-- R90: STUFF's loop, and that nothing but the result port changes. -/
def Obligations.StuffEscapesReservedBytes : Prop :=
  ∀ (s : State) (raw : List Byte),
    exec (.stuff raw) s = .next { s with
      out := ⟨.bytes (raw.flatMap fun b =>
        if b = s.params.marker ∨ b = s.params.esc then [s.params.esc, b ^^^ 0x20#8] else [b]), false, none⟩ }

/-- R91: the exact length, its bounds, and that STUFF of a concatenation is the concatenation. -/
def Obligations.StuffLengthAndConcatenation : Prop :=
  ∀ (s : State) (x y : List Byte), ∃ ox oy,
    exec (.stuff x) s = .next { s with out := ⟨.bytes ox, false, none⟩ } ∧
    exec (.stuff y) s = .next { s with out := ⟨.bytes oy, false, none⟩ } ∧
    exec (.stuff (x ++ y)) s = .next { s with out := ⟨.bytes (ox ++ oy), false, none⟩ } ∧
    ox.length = x.length + x.countP (fun b => b == s.params.marker || b == s.params.esc) ∧
    x.length ≤ ox.length ∧ ox.length ≤ 2 * x.length

/-- R92: with valid parameters (S1) no output byte is the marker, (S2) every escape byte is followed by a transformed
reserved byte that is itself not reserved, (S3) the last byte is not the escape byte. -/
def Obligations.StuffOutputIsUnambiguous : Prop :=
  ∀ (s : State) (raw : List Byte), s.params.valid = true → ∃ out,
    exec (.stuff raw) s = .next { s with out := ⟨.bytes out, false, none⟩ } ∧
    s.params.marker ∉ out ∧
    (∀ i : Nat, out[i]? = some s.params.esc → ∃ f, out[i + 1]? = some f ∧
      (f = s.params.marker ^^^ 0x20#8 ∨ f = s.params.esc ^^^ 0x20#8) ∧ f ≠ s.params.marker ∧ f ≠ s.params.esc) ∧
    out.getLast? ≠ some s.params.esc

/-- R93: DESTUFF's scan (a pair, a dropped tail, a literal), and that nothing but the result port changes. -/
def Obligations.DestuffScansEscapePairs : Prop :=
  ∀ s : State, ∃ d : List Byte → List Byte,
    (∀ x, exec (.destuff x) s = .next { s with out := ⟨.bytes (d x), false, none⟩ }) ∧
    d [] = [] ∧
    (∀ follower rest, d (s.params.esc :: follower :: rest) = (follower ^^^ 0x20#8) :: d rest) ∧
    d [s.params.esc] = [] ∧
    ∀ b rest, b ≠ s.params.esc → d (b :: rest) = b :: d rest

/-- R95: the streaming form, one transient bit and one byte at a time, computes DESTUFF. -/
def Obligations.StreamingDestuffAgrees : Prop :=
  ∀ (s : State) (x : List Byte),
    exec (.destuff x) s = .next { s with out := ⟨.bytes (destuffStream s.params x), false, none⟩ }

/-- R94: `floor(len(s) / 2) <= len(DESTUFF(s)) <= len(s)`. -/
def Obligations.DestuffLengthBounds : Prop :=
  ∀ (s : State) (x : List Byte), ∃ out,
    exec (.destuff x) s = .next { s with out := ⟨.bytes out, false, none⟩ } ∧
    x.length / 2 ≤ out.length ∧ out.length ≤ x.length

/-- R96: DESTUFF undoes STUFF, for every byte sequence. -/
def Obligations.DestuffUndoesStuff : Prop :=
  ∀ (s : State) (x : List Byte), ∃ (y : List Byte) (t : State),
    exec (.stuff x) s = .next t ∧ t.out.result = .bytes y ∧
    exec (.destuff y) t = .next { t with out := ⟨.bytes x, false, none⟩ }

/-- R97: STUFF undoes DESTUFF exactly on what STUFF can produce, and DESTUFF joins different sequences. -/
def Obligations.StuffUndoesDestuffOnlyOnItsImage : Prop :=
  (∀ (s : State) (x : List Byte), ∃ d,
    exec (.destuff x) s = .next { s with out := ⟨.bytes d, false, none⟩ } ∧
    (exec (.stuff d) s = .next { s with out := ⟨.bytes x, false, none⟩ } ↔
      ∃ y, exec (.stuff y) s = .next { s with out := ⟨.bytes x, false, none⟩ })) ∧
  ∀ s : State, exec (.destuff [s.params.esc]) s = exec (.destuff []) s

/-- R90, R72, the table's STUFF rows: each row's unit, and that a row is refused on a byte of another row. -/
def Obligations.StuffRowsEmitTheirUnit : Prop :=
  ∀ (s : State) (b : Byte), s.params.valid = true →
    exec .stuffMarker s = .next { s with
      out := ⟨.unit 1 [s.params.esc, s.params.marker ^^^ 0x20#8], false, none⟩ } ∧
    exec .stuffEsc s = .next { s with out := ⟨.unit 1 [s.params.esc, s.params.esc ^^^ 0x20#8], false, none⟩ } ∧
    (b ≠ s.params.marker → b ≠ s.params.esc →
      exec (.stuffPlain b) s = .next { s with out := ⟨.unit 1 [b], false, none⟩ }) ∧
    (b = s.params.marker ∨ b = s.params.esc → exec (.stuffPlain b) s = .refused .rowNotSelected)

/-- R93, R72, the table's DESTUFF rows. -/
def Obligations.DestuffRowsEmitTheirUnit : Prop :=
  ∀ (s : State) (b : Byte),
    exec (.destuffEscPair b) s = .next { s with out := ⟨.unit 2 [b ^^^ 0x20#8], false, none⟩ } ∧
    exec .destuffEscTail s = .next { s with out := ⟨.unit 1 [], false, none⟩ } ∧
    (b ≠ s.params.esc → exec (.destuffLiteral b) s = .next { s with out := ⟨.unit 1 [b], false, none⟩ }) ∧
    (b = s.params.esc → exec (.destuffLiteral b) s = .refused .rowNotSelected)

/-- R72, R90, R93: at every position of a scan the decoded row's unit, and then the rest, is what the whole operation
gives. -/
def Obligations.ByteRowsTileTheScan : Prop :=
  ∀ (s : State) (b : Byte) (rest : List Byte),
    (∃ i e out, decode s.params s.rxContext (.stuffUnit b) = .ok i ∧
      exec i s = .next { s with out := ⟨.unit 1 e, false, none⟩ } ∧
      exec (.stuff rest) s = .next { s with out := ⟨.bytes out, false, none⟩ } ∧
      exec (.stuff (b :: rest)) s = .next { s with out := ⟨.bytes (e ++ out), false, none⟩ }) ∧
    ∃ i n e out, decode s.params s.rxContext (.destuffUnit (b :: rest)) = .ok i ∧
      0 < n ∧ n ≤ (b :: rest).length ∧
      exec i s = .next { s with out := ⟨.unit n e, false, none⟩ } ∧
      exec (.destuff ((b :: rest).drop n)) s = .next { s with out := ⟨.bytes out, false, none⟩ } ∧
      exec (.destuff (b :: rest)) s = .next { s with out := ⟨.bytes (e ++ out), false, none⟩ }

/-! ## Checksum (spec/42_checksum.md) -/

/-- R110: on a range in bounds CHECKSUM runs the accumulator over the indices `start .. start+length-1`. -/
def Obligations.ChecksumXorsTheRange : Prop :=
  ∀ (s : State) (buffer : List Byte) (start length : Nat),
    start + length ≤ buffer.length →
    exec (.checksum buffer start length) s = .next { s with
      out := ⟨.byte ((List.range' start length).foldl (fun acc i => acc ^^^ buffer.getD i 0x00#8) 0x00#8), false,
        none⟩ }

/-- R113: a range splits into the XOR of its parts, and order does not matter. That the empty range gives 0x00 is the
spec's own choice (R111, D10; log entry 16). -/
def Obligations.ChecksumSplitsAndIgnoresOrder : Prop :=
  ∀ (s : State) (x y : List Byte), ∃ cx cy,
    exec (.checksum x 0 x.length) s = .next { s with out := ⟨.byte cx, false, none⟩ } ∧
    exec (.checksum y 0 y.length) s = .next { s with out := ⟨.byte cy, false, none⟩ } ∧
    exec (.checksum (x ++ y) 0 (x ++ y).length) s = .next { s with out := ⟨.byte (cx ^^^ cy), false, none⟩ } ∧
    (x.Perm y → cx = cy) ∧
    ∀ start, start ≤ x.length → exec (.checksum x start 0) s = .next { s with out := ⟨.byte 0x00#8, false, none⟩ }

/-- R114 (1): changing exactly one byte of a range to a different value changes the checksum of the range. -/
def Obligations.ChecksumDetectsOneChangedByte : Prop :=
  ∀ (s : State) (buffer : List Byte) (start length i : Nat) (b : Byte),
    start + length ≤ buffer.length → start ≤ i → i < start + length → buffer[i]? ≠ some b →
    ∃ c d, exec (.checksum buffer start length) s = .next { s with out := ⟨.byte c, false, none⟩ } ∧
      exec (.checksum (buffer.set i b) start length) s = .next { s with out := ⟨.byte d, false, none⟩ } ∧ c ≠ d

/-! ## Frame codec (spec/43_frame_codec.md) -/

/-- R120: ENCODE, the frame it builds, and its failure. That the failure answers a result that is no frame, and emits
the LogCritical event, are the spec's own choices (D11, D30; log entries 19 and 11). -/
def Obligations.EncodeBuildsTheFrame : Prop :=
  ∀ (s : State) (type address : Byte) (payload : List Byte) (maxPayload : Nat),
    (payload.length ≤ maxPayload → ∃ k, exec (.encode type address payload maxPayload) s = .next { s with
        out := ⟨.encoded (.frame ⟨address, type, address ^^^ type, payload, k⟩), false, none⟩ } ∧
      (payload = [] → k = none) ∧
      (payload ≠ [] → ∃ c, k = some c ∧
        exec (.checksum payload 0 payload.length) s = .next { s with out := ⟨.byte c, false, none⟩ })) ∧
    (maxPayload < payload.length → exec (.encode type address payload maxPayload) s = .next { s with
      out := ⟨.encoded .payloadTooLarge, true, none⟩ })

/-- R61: every frame a successful ENCODE, DECODE or RX_STEP returns satisfies W1 to W3. -/
def Obligations.ReturnedFramesAreWellFormed : Prop :=
  ∀ (i : Instr) (s t : State) (f : Frame), exec i s = .next t →
    t.out.result = .encoded (.frame f) ∨ t.out.result = .decoded (.frame f) ∨ t.out.result = .rx (.frame f) →
    f.headerChecksum = f.address ^^^ f.control ∧
    (f.payload = [] ↔ f.payloadChecksum = none) ∧
    ∀ c, f.payloadChecksum = some c → c = f.payload.foldl (· ^^^ ·) 0x00#8

/-- R123: DECODE's tests in their order, written over the indices of the operand. The first test's result is the
spec's own choice (D12; log entry 12). -/
def Obligations.DecodeTestsInOrder : Prop :=
  ∀ (s : State) (d : List Byte),
    exec (.decode d) s = .next { s with out := ⟨.decoded (
      if d.length < 3 then .error .frameTooShort
      else if d.getD 2 0x00#8 ≠ d.getD 0 0x00#8 ^^^ d.getD 1 0x00#8 then .error .headerChecksumMismatch
      else if d.length = 3 then .frame ⟨d.getD 0 0x00#8, d.getD 1 0x00#8, d.getD 2 0x00#8, [], none⟩
      else if (List.range' 3 (d.length - 4)).foldl (fun acc i => acc ^^^ d.getD i 0x00#8) 0x00#8
          ≠ d.getD (d.length - 1) 0x00#8 then .error .payloadChecksumMismatch
      else if d.length - 4 = 0 then .frame ⟨d.getD 0 0x00#8, d.getD 1 0x00#8, d.getD 2 0x00#8, [], none⟩
      else .frame ⟨d.getD 0 0x00#8, d.getD 1 0x00#8, d.getD 2 0x00#8, (d.drop 3).take (d.length - 4),
        some (d.getD (d.length - 1) 0x00#8)⟩), false, none⟩ }

/-- R124: with three bytes or more, the header error is reported exactly when `d[2] != d[0] ^ d[1]`, whatever follows,
which is the test `d[0] ^ d[1] ^ d[2] != 0x00`. -/
def Obligations.HeaderErrorIffHeaderXorNonzero : Prop :=
  ∀ (s : State) (d : List Byte), 3 ≤ d.length →
    (exec (.decode d) s = .next { s with out := ⟨.decoded (.error .headerChecksumMismatch), false, none⟩ } ↔
      d.getD 2 0x00#8 ≠ d.getD 0 0x00#8 ^^^ d.getD 1 0x00#8) ∧
    (exec (.decode d) s = .next { s with out := ⟨.decoded (.error .headerChecksumMismatch), false, none⟩ } ↔
      d.getD 0 0x00#8 ^^^ d.getD 1 0x00#8 ^^^ d.getD 2 0x00#8 ≠ 0x00#8)

/-- R129: RAWBYTES' layout, the stored checksums emitted as they are, and its refusal of a payload without its
checksum. -/
def Obligations.RawbytesLaysOutTheFrame : Prop :=
  ∀ (s : State) (a c h k : Byte) (payload : List Byte),
    exec (.rawbytes (.frame ⟨a, c, h, [], none⟩)) s = .next { s with out := ⟨.bytes [a, c, h], false, none⟩ } ∧
    (payload ≠ [] → exec (.rawbytes (.frame ⟨a, c, h, payload, some k⟩)) s = .next { s with
      out := ⟨.bytes ([a, c, h] ++ payload ++ [k]), false, none⟩ }) ∧
    (payload ≠ [] → exec (.rawbytes (.frame ⟨a, c, h, payload, none⟩)) s = .refused .frameLayoutUndefined)

/-- R130: SERIALIZE is the marker, the stuffed raw bytes and the marker, for every operand RAWBYTES is defined on. -/
def Obligations.SerializeWrapsStuffedRawBytes : Prop :=
  ∀ (s : State) (f : EncodeResult),
    f.usable = true → ∃ raw stuffed,
      exec (.rawbytes f) s = .next { s with out := ⟨.bytes raw, false, none⟩ } ∧
      exec (.stuff raw) s = .next { s with out := ⟨.bytes stuffed, false, none⟩ } ∧
      exec (.serialize f) s = .next { s with
        out := ⟨.bytes ([s.params.marker] ++ stuffed ++ [s.params.marker]), false, none⟩ }

/-- R132 (a), (b): in the wire form the marker stands at both ends and nowhere else, and its length is that of the raw
bytes, one more for every reserved byte among them, and two. -/
def Obligations.WireMarkersOnlyAtTheEnds : Prop :=
  ∀ (s : State) (f : EncodeResult), s.params.valid = true → f.usable = true → ∃ wire raw,
    exec (.serialize f) s = .next { s with out := ⟨.bytes wire, false, none⟩ } ∧
    exec (.rawbytes f) s = .next { s with out := ⟨.bytes raw, false, none⟩ } ∧
    wire.length = raw.length + raw.countP (fun b => b == s.params.marker || b == s.params.esc) + 2 ∧
    5 ≤ wire.length ∧
    ∀ i : Nat, wire[i]? = some s.params.marker ↔ i = 0 ∨ i = wire.length - 1

/-- R133: DECODE of RAWBYTES of an encoded frame is that frame, stuffing and destuffing between or not. -/
def Obligations.DecodeUndoesRawbytesOfEncode : Prop :=
  ∀ (s t : State) (type address : Byte) (payload : List Byte) (maxPayload : Nat) (f : Frame),
    exec (.encode type address payload maxPayload) s = .next t → t.out.result = .encoded (.frame f) →
    f.address = address ∧ f.control = type ∧ f.payload = payload ∧
    ∃ raw stuffed,
      exec (.rawbytes (.frame f)) s = .next { s with out := ⟨.bytes raw, false, none⟩ } ∧
      (payload = [] → raw.length = 3) ∧
      exec (.decode raw) s = .next { s with out := ⟨.decoded (.frame f), false, none⟩ } ∧
      exec (.stuff raw) s = .next { s with out := ⟨.bytes stuffed, false, none⟩ } ∧
      exec (.destuff stuffed) s = .next { s with out := ⟨.bytes raw, false, none⟩ }

/-- R114 (1), (2): one changed byte among the raw bytes of an encoded frame is always reported, as a header error for
the first three and as a payload error for the others. -/
def Obligations.OneCorruptRawByteIsReported : Prop :=
  ∀ (s : State) (type address b : Byte) (payload raw : List Byte) (f : Frame) (i : Nat),
    exec (.encode type address payload payload.length) s = .next { s with
      out := ⟨.encoded (.frame f), false, none⟩ } →
    exec (.rawbytes (.frame f)) s = .next { s with out := ⟨.bytes raw, false, none⟩ } →
    i < raw.length → raw[i]? ≠ some b →
    exec (.decode (raw.set i b)) s = .next { s with out := ⟨.decoded (.error
      (if i < 3 then .headerChecksumMismatch else .payloadChecksumMismatch)), false, none⟩ }

/-- R134, R135, R209: on a usable frame SEND makes one `writeBytes` call with the whole wire frame and hands its answer
on unchanged (the spec's own choice, D23, log entry 26). The answer is the next listed one, or, where none is listed,
some answer the contract allows. The clause about the free answer is the model's form of R209's free input (log entry
5); the transmit stream's growth is log entry 7. -/
def Obligations.SendWritesTheWireFrameOnce : Prop :=
  ∀ (s : State) (f : EncodeResult), f.usable = true → ∃ w,
    exec (.serialize f) s = .next { s with out := ⟨.bytes w, false, none⟩ } ∧
    (∀ n rest, s.wr = .written n :: rest → n ≤ w.length →
      exec (.send f) s = .next { s with
        wr := rest, tx := s.tx ++ w.take n, out := ⟨.write (.written n), false, some (w, w.length)⟩ }) ∧
    (∀ rest, s.wr = .error :: rest →
      exec (.send f) s = .next { s with wr := rest, out := ⟨.write .error, false, some (w, w.length)⟩ }) ∧
    (s.wr = [] →
      (∃ n, n ≤ w.length ∧ exec (.send f) s = .next { s with
        free := s.free + 1, tx := s.tx ++ w.take n, out := ⟨.write (.written n), false, some (w, w.length)⟩ }) ∨
      exec (.send f) s = .next { s with
        free := s.free + 1, out := ⟨.write .error, false, some (w, w.length)⟩ })

/-- Where an operation is given operands the spec gives no meaning for: CHECKSUM out of range (R112, D24), RAWBYTES,
SERIALIZE and SEND on a failed ENCODE (R136, D11) and on a frame violating W2 (U5; log entry 21), and SEND when the
transport's listed answer claims more bytes than it was given (U9; log entry 20). -/
def Obligations.UndefinedOperandsAreRefused : Prop :=
  ∀ s : State,
    (∀ (buffer : List Byte) (start length : Nat), buffer.length < start + length →
      exec (.checksum buffer start length) s = .refused .checksumOutOfRange) ∧
    (∀ i, i = .rawbytes .payloadTooLarge ∨ i = .serialize .payloadTooLarge ∨ i = .send .payloadTooLarge →
      exec i s = .refused .failedEncodeOperand) ∧
    (∀ (g : Frame) (i : Instr), ¬(g.payload = [] ↔ g.payloadChecksum = none) →
      i = .rawbytes (.frame g) ∨ i = .serialize (.frame g) ∨ i = .send (.frame g) →
      exec i s = .refused .frameLayoutUndefined) ∧
    ∀ (g : Frame) (n : Nat) (rest : List WriteAnswer), (g.payload = [] ↔ g.payloadChecksum = none) →
      s.wr = .written n :: rest → (wireBytes s.params g).length < n →
      exec (.send (.frame g)) s = .refused .writeAnswerOutOfRange

/-! ## Reassembler (spec/44_reassembler.md) -/

/-- R152: no byte available changes nothing, as RX_STEP and as the row RX.NOBYTE. -/
def Obligations.NoByteChangesNothing : Prop :=
  ∀ s : State,
    exec .rxNobyte s = .next { s with out := ⟨.rx .noByteAvailable, false, none⟩ } ∧
    ∀ rest, s.rx = none :: rest →
      exec .rxStep s = .next { s with rx := rest, out := ⟨.rx .noByteAvailable, false, none⟩ }

/-- R153: desync recovery, in either state, as RX_STEP and as the two RESYNC rows, and that with the failure flag clear
no byte has that meaning. That class RESYNC is two rows split by the byte is log entry 3, and that a row is refused by
name in a state that does not select it is log entry 8. -/
def Obligations.ResyncByteRestartsAccumulation : Prop :=
  ∀ (s : State) (b : Byte),
    (s.fail = true → b ∈ s.params.resync →
      (b ≠ 0x03#8 → exec (.rxResync01 b) s = .next { s with
        fs := true, buf := [b], fail := false, out := ⟨.rx .incomplete, false, none⟩ }) ∧
      (b = 0x03#8 → exec .rxResync03 s = .next { s with
        fs := true, buf := [b], fail := false, out := ⟨.rx .incomplete, false, none⟩ }) ∧
      ∀ rest, s.rx = some b :: rest → exec .rxStep s = .next { s with
        rx := rest, fs := true, buf := [b], fail := false, out := ⟨.rx .incomplete, false, none⟩ }) ∧
    (s.fail = false →
      exec (.rxResync01 b) s = .refused .rowNotSelected ∧ exec .rxResync03 s = .refused .rowNotSelected ∧
      decode s.params s.rxContext (.rx (some b)) ≠ .ok (.rxResync01 b) ∧
      decode s.params s.rxContext (.rx (some b)) ≠ .ok .rxResync03)

/-- R155: the marker in Idle, as RX_STEP and as the row RX.START. That it clears `fail` is the spec's own choice (D13;
log entry 13). -/
def Obligations.StartMarkerBeginsAFrame : Prop :=
  ∀ s : State, s.params.valid = true → s.fs = false →
    exec .rxStart s = .next { s with
      fs := true, buf := [], fail := false, out := ⟨.rx .incomplete, false, none⟩ } ∧
    ∀ rest, s.rx = some s.params.marker :: rest → exec .rxStep s = .next { s with
      rx := rest, fs := true, buf := [], fail := false, out := ⟨.rx .incomplete, false, none⟩ }

/-- R156: the marker in Accumulating with fewer than 2 bytes buffered has no effect. -/
def Obligations.NoiseMarkerHasNoEffect : Prop :=
  ∀ s : State, s.params.valid = true → s.fs = true → s.buf.length < 2 →
    exec .rxNoise s = .next { s with out := ⟨.rx .incomplete, false, none⟩ } ∧
    ∀ rest, s.rx = some s.params.marker :: rest →
      exec .rxStep s = .next { s with rx := rest, out := ⟨.rx .incomplete, false, none⟩ }

/-- R157, R158: the end marker runs DESTUFF and DECODE over the buffer, goes Idle, clears the buffer, sets `fail` on
any decode error and clears it otherwise, and returns the decode result. That a too short frame sets `fail` too, and
that success clears it, are the spec's own choices (D12, D16; log entries 12 and 26). -/
def Obligations.EndMarkerDecodesTheBuffer : Prop :=
  ∀ s : State, s.params.valid = true → s.fs = true → 2 ≤ s.buf.length →
    ∃ d r failed result,
      exec (.destuff s.buf) s = .next { s with out := ⟨.bytes d, false, none⟩ } ∧
      exec (.decode d) s = .next { s with out := ⟨.decoded r, false, none⟩ } ∧
      ((∃ f, r = .frame f ∧ failed = false ∧ result = .frame f) ∨
        (∃ k, r = .error k ∧ failed = true ∧ result = .error k)) ∧
      exec .rxEnd s = .next { s with fs := false, buf := [], fail := failed, out := ⟨.rx result, false, none⟩ } ∧
      ∀ rest, s.rx = some s.params.marker :: rest → exec .rxStep s = .next { s with
        rx := rest, fs := false, buf := [], fail := failed, out := ⟨.rx result, false, none⟩ }

/-- R159: a non-marker byte that is no resync signal, with the buffer full, is discarded and reported. That nothing else
changes is the spec's own choice (D15; log entry 14). -/
def Obligations.OverflowDiscardsTheByte : Prop :=
  ∀ (s : State) (b : Byte), s.fs = true → s.params.cap ≤ s.buf.length → b ≠ s.params.marker →
    ¬(s.fail = true ∧ b ∈ s.params.resync) →
    exec (.rxOverflow b) s = .next { s with out := ⟨.rx (.error .frameTooLarge), false, none⟩ } ∧
    ∀ rest, s.rx = some b :: rest → exec .rxStep s = .next { s with
      rx := rest, out := ⟨.rx (.error .frameTooLarge), false, none⟩ }

/-- R160: a non-marker byte that is no resync signal is appended while the buffer has room. -/
def Obligations.DataByteIsAppended : Prop :=
  ∀ (s : State) (b : Byte), s.fs = true → s.buf.length < s.params.cap → b ≠ s.params.marker →
    ¬(s.fail = true ∧ b ∈ s.params.resync) →
    exec (.rxData b) s = .next { s with buf := s.buf ++ [b], out := ⟨.rx .incomplete, false, none⟩ } ∧
    ∀ rest, s.rx = some b :: rest → exec .rxStep s = .next { s with
      rx := rest, buf := s.buf ++ [b], out := ⟨.rx .incomplete, false, none⟩ }

/-- R161: a non-marker byte that is no resync signal is dropped in Idle. That the result is `Incomplete` is the spec's
own choice (D14; log entry 26). -/
def Obligations.IdleByteIsIgnored : Prop :=
  ∀ (s : State) (b : Byte), s.fs = false → b ≠ s.params.marker → ¬(s.fail = true ∧ b ∈ s.params.resync) →
    exec (.rxIgnore b) s = .next { s with out := ⟨.rx .incomplete, false, none⟩ } ∧
    ∀ rest, s.rx = some b :: rest →
      exec .rxStep s = .next { s with rx := rest, out := ⟨.rx .incomplete, false, none⟩ }

/-- R40, R160, the frame of the one storing row: the byte goes to index `len(buf)`, and every other index reads as
before; no flag, parameter or transport list changes. -/
def Obligations.AppendChangesOneBufferByte : Prop :=
  ∀ (s t : State) (b : Byte), exec (.rxData b) s = .next t →
    Memory.read t.buf s.buf.length = some b ∧
    (∀ a, a ≠ s.buf.length → Memory.read t.buf a = Memory.read s.buf a) ∧
    t.fs = s.fs ∧ t.fail = s.fail ∧ t.params = s.params ∧ t.rx = s.rx ∧ t.wr = s.wr ∧ t.tx = s.tx

/-- R71, R151: RX_STEP does what the row decoded from the transport's answer, in the state it is read in, does. The
answer is the next listed one, or, where none is listed, some answer: the model's form of R208's free input (log entry
6). -/
def Obligations.RxStepRunsItsDecodedRow : Prop :=
  ∀ s : State,
    (∀ a rest, s.rx = a :: rest → ∃ i t, decode s.params s.rxContext (.rx a) = .ok i ∧
      exec .rxStep s = .next t ∧ exec i { s with rx := rest } = .next t) ∧
    (s.rx = [] → ∃ a i t, decode s.params s.rxContext (.rx a) = .ok i ∧
      exec .rxStep s = .next t ∧ exec i { s with free := s.free + 1 } = .next t)

/-- R71, R162: in every state and for every answer exactly one row runs. That the rows are instructions, and that the
others are refused by name, is log entry 8. -/
def Obligations.ExactlyOneRowRuns : Prop :=
  ∀ (s : State) (a : Option Byte), s.params.valid = true →
    ∃ i, encode s.params i = .rx a ∧ i.wellFormed = true ∧ (∃ t, exec i s = .next t) ∧
      ∀ j, encode s.params j = .rx a → j.wellFormed = true → j ≠ i → exec j s = .refused .rowNotSelected

/-- R78: the line `RX b` (or `RX -`) does what RX_STEP does when the transport gives that answer. -/
def Obligations.RxLineIsRxStepWithItsAnswer : Prop :=
  ∀ (s : State) (a : Option Byte), s.params.valid = true → ∃ t,
    step { s with requests := .rx a :: s.requests } = .next t ∧
    step { s with requests := .op 0x8#4 .none :: s.requests, rx := a :: s.rx } = .next t

/-- R168: RX_RESET's effect in every state, and that it consumes no transport byte. That it clears all three elements is
the spec's own choice (D17; log entry 15). -/
def Obligations.RxResetClearsTheReassembler : Prop :=
  ∀ s : State,
    exec .rxReset s = .next { s with fs := false, buf := [], fail := false, out := ⟨.nothing, false, none⟩ }

/-- R164: after an overflow every further non-marker byte is reported again and changes nothing, and the next marker
ends the attempt with the decode of what was buffered. -/
def Obligations.OverflowRepeatsUntilTheMarker : Prop :=
  ∀ (s : State) (bs : List Byte), s.params.valid = true → s.fs = true → s.fail = false →
    s.params.cap ≤ s.buf.length → s.params.marker ∉ bs →
    (∀ k, 0 < k → k ≤ bs.length → ∃ t : State,
      Host.Core.run Sys2Proof.core k (s.presentAll (feed ((bs ++ [s.params.marker]).map some))) = .next t ∧
      t.fs = true ∧ t.fail = false ∧ t.buf = s.buf ∧ t.out.result = .rx (.error .frameTooLarge)) ∧
    ∃ t : State,
      Host.Core.run Sys2Proof.core (bs.length + 1)
        (s.presentAll (feed ((bs ++ [s.params.marker]).map some))) = .next t ∧
      t.fs = false ∧ t.buf = [] ∧ t.fail = (decodeWire s.params s.buf).isError ∧
      t.out.result = .rx (decodeWire s.params s.buf).toRx

/-- R165, loop-back: in Idle, feeding the wire form of a well-formed frame that fits answers `Incomplete` for every
byte but the last and the frame for the last, and ends Idle, empty, with the failure flag clear. -/
def Obligations.LoopbackReceivesTheFrame : Prop :=
  ∀ (s : State) (f : Frame) (w : List Byte), s.params.valid = true → s.fs = false → f.wellFormed = true →
    exec (.serialize (.frame f)) s = .next { s with out := ⟨.bytes w, false, none⟩ } →
    w.length - 2 ≤ s.params.cap →
    (∀ k, 0 < k → k < w.length → ∃ t : State,
      Host.Core.run Sys2Proof.core k (s.presentAll (feed (w.map some))) = .next t ∧
      t.out.result = .rx .incomplete) ∧
    Host.Core.run Sys2Proof.core w.length (s.presentAll (feed (w.map some))) = .next { s with
      fs := false, buf := [], fail := false, out := ⟨.rx (.frame f), false, none⟩ }

/-- R166 (b): after a failed decode, a frame that arrives without its start marker is received when its first byte on
the wire is a resync byte. -/
def Obligations.RecoveryReceivesAFrameWithoutItsStart : Prop :=
  ∀ (s : State) (f : Frame) (b : Byte) (rest : List Byte), s.params.valid = true → s.fail = true →
    f.wellFormed = true → b ∈ s.params.resync →
    exec (.serialize (.frame f)) s = .next { s with
      out := ⟨.bytes (s.params.marker :: b :: rest), false, none⟩ } →
    rest.length ≤ s.params.cap →
    Host.Core.run Sys2Proof.core (rest.length + 1) (s.presentAll (feed ((b :: rest).map some))) = .next { s with
      fs := false, buf := [], fail := false, out := ⟨.rx (.frame f), false, none⟩ }

/-- R127: a frame RX_STEP returns came out of the bounded buffer: a non-empty payload has at most `P.CAP - 4` bytes. -/
def Obligations.ReceivedPayloadFitsTheBuffer : Prop :=
  ∀ (i : Instr) (s t : State) (f : Frame), s.Inv → exec i s = .next t → t.out.result = .rx (.frame f) →
    f.payload = [] ∨ f.payload.length ≤ s.params.cap - 4

/-! ## The whole machine -/

/-- R24, R43: no instruction but RX_STEP, its rows and RX_RESET changes `fs`, `fail` or any byte of the buffer. -/
def Obligations.OnlyReceiveChangesTheReassembler : Prop :=
  ∀ (i : Instr) (s t : State), i.receives = false → exec i s = .next t → SameReassembler s t

/-- R26, R49, R208, R209: the parameters never change, and the transport is called by RX_STEP (one `readByte`) and by
SEND (one `writeBytes`) and by nothing else. A listed answer to `readByte` leaves the free counter alone (log entries 5
and 6). -/
def Obligations.TransportIsCalledOnlyByRxStepAndSend : Prop :=
  ∀ (i : Instr) (s t : State), exec i s = .next t →
    t.params = s.params ∧ t.requests = s.requests ∧
    (i = .rxStep → t.rx = s.rx.drop 1) ∧ (i ≠ .rxStep → t.rx = s.rx) ∧
    ((∀ f, i ≠ .send f) → t.wr = s.wr ∧ t.tx = s.tx ∧ t.out.write = none ∧
      (i ≠ .rxStep ∨ s.rx ≠ [] → t.free = s.free)) ∧
    ((∃ f, i = .send f) → ∃ w, t.out.write = some (w, w.length) ∧ s.tx <+: t.tx)

/-- R201: the state after each error. For `FrameTooShort` and `FrameTooLarge` it is the spec's own choice (D12, D15; log
entries 12 and 14). -/
def Obligations.StateAfterEachError : Prop :=
  ∀ (i : Instr) (s t : State), exec i s = .next t →
    (∀ k, t.out.result = .rx (.error k) →
      ((k = .headerChecksumMismatch ∨ k = .payloadChecksumMismatch ∨ k = .frameTooShort) ∧
        t.fs = false ∧ t.buf = [] ∧ t.fail = true) ∨
      (k = .frameTooLarge ∧ s.fs = true ∧ t.fs = true ∧ s.params.cap ≤ s.buf.length ∧ t.buf = s.buf ∧
        t.fail = s.fail)) ∧
    (∀ k, t.out.result = .decoded (.error k) → t.fs = s.fs ∧ t.buf = s.buf ∧ t.fail = s.fail) ∧
    (t.out.result = .encoded .payloadTooLarge → t.fs = s.fs ∧ t.buf = s.buf ∧ t.fail = s.fail)

/-- R28: a step sets `fail` only as the end marker of a frame whose decode fails, and sets `fs` only by a start marker
or a recovery, which both clear `fail`. -/
def Obligations.FlagsAreSetOnlyByTheirEvents : Prop :=
  ∀ s t : State, step s = .next t →
    (s.fail = false → t.fail = true →
      s.fs = true ∧ 2 ≤ s.buf.length ∧ t.fs = false ∧ t.buf = [] ∧
      ∃ k, decodeWire s.params s.buf = .error k ∧ t.out.result = .rx (.error k)) ∧
    (s.fs = false → t.fs = true →
      t.fail = false ∧ t.out.result = .rx .incomplete ∧
      (t.buf = [] ∨ ∃ b, b ∈ s.params.resync ∧ s.fail = true ∧ t.buf = [b]))

/-- R203, R238: every well-formed instruction selected in a state answers there, unless its code is reserved or the
transport's listed answer claims more bytes than it was given. -/
def Obligations.EverySelectedOperationCompletes : Prop :=
  ∀ (i : Instr) (s : State), s.params.valid = true → i.wellFormed = true →
    i.selected s.params s.rxContext = true → (∀ code, i ≠ .reservedOp code) →
    (∀ f n, i = .send (.frame f) → s.wr.head? = some (.written n) → n ≤ (wireBytes s.params f).length) →
    ∃ t, exec i s = .next t

/-- R20, R51 (3): an operation without state leaves a receive operation's whole outcome alone, and has the same result
before and after it. -/
def Obligations.PureOperationsCommuteWithReceive : Prop :=
  ∀ (i j : Instr) (s u : State), i.receives = false → (∀ f, i ≠ .send f) → j.receives = true →
    exec i s = .next u →
    exec j u = exec j s ∧
    ∀ t, exec j s = .next t → ∃ v, exec i t = .next v ∧ v.out = u.out ∧ SameReassembler t v

/-- R170, R210: a step of one instance is that instance's own step and leaves every other instance alone. -/
def Obligations.InstancesAreIndependent : Prop :=
  ∀ (bank bank' : Bank) (k : Nat), Bank.step bank k = .next bank' →
    (∃ s t, bank[k]? = some s ∧ step s = .next t ∧ bank'[k]? = some t) ∧
    bank'.length = bank.length ∧ ∀ j, j ≠ k → bank'[j]? = bank[j]?

/-- R76: the reserved operation codes are refused, whatever stands on the operand ports (U10, D20; log entry 9). -/
def Obligations.ReservedCodesAreRefused : Prop :=
  ∀ (s : State) (code : BitVec 4) (operands : Operands), 0xA ≤ code.toNat →
    decode s.params s.rxContext (.op code operands) = .ok (.reservedOp code) ∧
    exec (.reservedOp code) s = .refused (.reservedOperation code)

/-- R65, R190: the status and error-kind codes an answered RX_STEP shows on the port, numbers of the spec's own choice
(D21; log entry 18). -/
def Obligations.StatusPortShowsTheResult : Prop :=
  ∀ (i : Instr) (s t : State) (r : RxResult), exec i s = .next t → t.out.result = .rx r →
    (t.statusPort = some 0b00 ↔ r = .noByteAvailable) ∧ (t.statusPort = some 0b01 ↔ r = .incomplete) ∧
    (t.statusPort = some 0b10 ↔ ∃ f, r = .frame f) ∧ (t.statusPort = some 0b11 ↔ ∃ k, r = .error k) ∧
    (t.errkindPort = some 1 ↔ r = .error .headerChecksumMismatch) ∧
    (t.errkindPort = some 2 ↔ r = .error .payloadChecksumMismatch) ∧
    (t.errkindPort = some 3 ↔ r = .error .frameTooLarge) ∧
    t.errkindPort ≠ some 4 ∧
    (t.errkindPort = some 5 ↔ r = .error .frameTooShort)

/-! ## Encoding, step, reset, invariant -/

/-- R70, R71, R72: decoding the encoding of a well-formed instruction gives it back, in every state that selects it. -/
def Obligations.DecodeOfEncodeIsTheInstruction : Prop :=
  ∀ (p : Params) (c : RxContext) (i : Instr), p.valid = true → i.wellFormed = true → i.selected p c = true →
    decode p c (encode p i) = .ok i

/-- R70, R71, R72: what decodes is selected, and its encoding is the transaction it was decoded from: whole for a
defined operation code, a received byte and a byte under STUFF, and the consumed front of the scan under DESTUFF. -/
def Obligations.EncodeOfDecodeIsTheTransaction : Prop :=
  ∀ (p : Params) (c : RxContext) (w : Transaction) (i : Instr), p.valid = true → decode p c w = .ok i →
    i.selected p c = true ∧
    match w with
    | .op select _ => select.toNat < 0xA → encode p i = w
    | .rx _ => encode p i = w
    | .stuffUnit _ => encode p i = w
    | .destuffUnit scan => ∃ used left, used ≠ [] ∧ scan = used ++ left ∧ encode p i = .destuffUnit used

/-- R70: the operation-select codes with the operand shapes of R66, and the refusal of operands of another shape. The
code numbers are the spec's own choice (D20; log entry 18); the structured operands are log entry 9. -/
def Obligations.OperationCodesSelectTheirOperations : Prop :=
  ∀ (p : Params) (c : RxContext) (select : BitVec 4) (operands : Operands) (i : Instr), select.toNat < 0xA →
    (decode p c (.op select operands) = .ok i ↔
      (∃ x, select = 0x0#4 ∧ operands = .bytes x ∧ i = .stuff x) ∨
      (∃ x, select = 0x1#4 ∧ operands = .bytes x ∧ i = .destuff x) ∨
      (∃ buffer start length, select = 0x2#4 ∧ operands = .range buffer start length ∧
        i = .checksum buffer start length) ∨
      (∃ type address payload maxPayload, select = 0x3#4 ∧ operands = .construct type address payload maxPayload ∧
        i = .encode type address payload maxPayload) ∨
      (∃ x, select = 0x4#4 ∧ operands = .bytes x ∧ i = .decode x) ∨
      (∃ f, select = 0x5#4 ∧ operands = .frame f ∧ i = .rawbytes f) ∨
      (∃ f, select = 0x6#4 ∧ operands = .frame f ∧ i = .serialize f) ∨
      (∃ f, select = 0x7#4 ∧ operands = .frame f ∧ i = .send f) ∨
      (select = 0x8#4 ∧ operands = .none ∧ i = .rxStep) ∨
      (select = 0x9#4 ∧ operands = .none ∧ i = .rxReset)) ∧
    ((∀ j, decode p c (.op select operands) ≠ .ok j) →
      decode p c (.op select operands) = .error (.operandShape select))

/-- Words written out from R70, R71, R72 with the table's default parameters, and the instructions they stand for. -/
def Obligations.TableWordsDecode : Prop :=
  decode Params.standard ⟨false, false, 0⟩ (.op 0b0000#4 (.bytes [0x7E#8])) = .ok (.stuff [0x7E#8]) ∧
  decode Params.standard ⟨true, false, 5⟩ (.op 0b0010#4 (.range [0x01#8, 0x02#8] 1 1)) = .ok (.checksum [0x01#8, 0x02#8] 1 1) ∧
  decode Params.standard ⟨true, true, 5⟩ (.op 0b1001#4 .none) = .ok .rxReset ∧
  decode Params.standard ⟨false, true, 0⟩ (.rx (some 0b00000001#8)) = .ok (.rxResync01 0x01#8) ∧
  decode Params.standard ⟨true, false, 2⟩ (.rx (some 0b01111110#8)) = .ok .rxEnd ∧
  decode Params.standard ⟨true, false, 1⟩ (.rx (some 0b01111110#8)) = .ok .rxNoise ∧
  decode Params.standard ⟨false, false, 0⟩ (.destuffUnit [0b01111101#8, 0b01111101#8]) = .ok (.destuffEscPair 0x7D#8) ∧
  decode Params.standard ⟨false, false, 0⟩ (.stuffUnit 0b01111101#8) = .ok .stuffEsc

/-- R48, R51: a step is the decoded instruction run on the state whose host has one transaction less. With no
transaction nothing happens (log entry 2); a transaction that is no instruction (log entry 9) and an instance with
invalid parameters (D6; log entry 22) are refused. -/
def Obligations.StepRunsTheDecodedInstruction : Prop :=
  ∀ s : State,
    (s.params.valid = true → s.requests = [] → step s = .next s) ∧
    (∀ w rest i, s.params.valid = true → s.requests = w :: rest → decode s.params s.rxContext w = .ok i →
      step s = exec i { s with requests := rest }) ∧
    (∀ w rest e, s.params.valid = true → s.requests = w :: rest → decode s.params s.rxContext w = .error e →
      step s = .refused (.undecodable e)) ∧
    (s.params.valid = false → step s = .refused .invalidParameters)

/-- R32: the reassembler after power-on, and that RX_RESET gives the same from any state; both are the spec's own choice
(D17, D18; log entry 15). -/
def Obligations.ResetIsIdleEmptyClear : Prop :=
  State.reset.fs = false ∧ State.reset.buf = [] ∧ State.reset.fail = false ∧
  ∀ s : State, ∃ t, exec .rxReset s = .next t ∧
    t.fs = State.reset.fs ∧ t.buf = State.reset.buf ∧ t.fail = State.reset.fail

/-- The invariant of R31 holds after reset. That the parameters of the reset state are valid rests on the values of log
entry 1. -/
def Obligations.ResetSatisfiesTheInvariant : Prop := State.reset.Inv

/-- R31, R21: every step from any state with the invariant keeps it: the buffer within `P.CAP`, empty in Idle, free of
markers, and the failure flag clear while accumulating. -/
def Obligations.StepKeepsTheInvariant : Prop :=
  ∀ s t : State, s.Inv → step s = .next t → t.Inv

/-- R21: the length counter of a hardware buffer holds every reachable length. -/
def Obligations.LengthCounterIsWideEnough : Prop :=
  ∀ s t : State, s.Inv → step s = .next t → t.buf.length < 2 ^ lenWidth t.params
end

