-- ==== Sys2Proof/Laws/State.lean ====
section
/-! SUPPORT. What each update of the state leaves in each field, so that no proof unfolds a record update. -/

namespace Sys2Proof.Machine

variable (s : State)

@[simp] theorem State.answer_params (r : Result) : (s.answer r).params = s.params := rfl
@[simp] theorem State.answer_fs (r : Result) : (s.answer r).fs = s.fs := rfl
@[simp] theorem State.answer_fail (r : Result) : (s.answer r).fail = s.fail := rfl
@[simp] theorem State.answer_buf (r : Result) : (s.answer r).buf = s.buf := rfl
@[simp] theorem State.answer_requests (r : Result) : (s.answer r).requests = s.requests := rfl
@[simp] theorem State.answer_rx (r : Result) : (s.answer r).rx = s.rx := rfl
@[simp] theorem State.answer_wr (r : Result) : (s.answer r).wr = s.wr := rfl
@[simp] theorem State.answer_tx (r : Result) : (s.answer r).tx = s.tx := rfl
@[simp] theorem State.answer_free (r : Result) : (s.answer r).free = s.free := rfl
@[simp] theorem State.answer_out (r : Result) : (s.answer r).out = ⟨r, false, none⟩ := rfl

@[simp] theorem State.answerLogged_params (r : Result) : (s.answerLogged r).params = s.params := rfl
@[simp] theorem State.answerLogged_fs (r : Result) : (s.answerLogged r).fs = s.fs := rfl
@[simp] theorem State.answerLogged_fail (r : Result) : (s.answerLogged r).fail = s.fail := rfl
@[simp] theorem State.answerLogged_buf (r : Result) : (s.answerLogged r).buf = s.buf := rfl
@[simp] theorem State.answerLogged_requests (r : Result) : (s.answerLogged r).requests = s.requests := rfl
@[simp] theorem State.answerLogged_rx (r : Result) : (s.answerLogged r).rx = s.rx := rfl
@[simp] theorem State.answerLogged_wr (r : Result) : (s.answerLogged r).wr = s.wr := rfl
@[simp] theorem State.answerLogged_tx (r : Result) : (s.answerLogged r).tx = s.tx := rfl
@[simp] theorem State.answerLogged_free (r : Result) : (s.answerLogged r).free = s.free := rfl
@[simp] theorem State.answerLogged_out (r : Result) : (s.answerLogged r).out = ⟨r, true, none⟩ := rfl

@[simp] theorem State.beginFrame_params (seed : Memory) : (s.beginFrame seed).params = s.params := rfl
@[simp] theorem State.beginFrame_fs (seed : Memory) : (s.beginFrame seed).fs = true := rfl
@[simp] theorem State.beginFrame_fail (seed : Memory) : (s.beginFrame seed).fail = false := rfl
@[simp] theorem State.beginFrame_buf (seed : Memory) : (s.beginFrame seed).buf = seed := rfl
@[simp] theorem State.beginFrame_requests (seed : Memory) : (s.beginFrame seed).requests = s.requests := rfl
@[simp] theorem State.beginFrame_rx (seed : Memory) : (s.beginFrame seed).rx = s.rx := rfl
@[simp] theorem State.beginFrame_wr (seed : Memory) : (s.beginFrame seed).wr = s.wr := rfl
@[simp] theorem State.beginFrame_tx (seed : Memory) : (s.beginFrame seed).tx = s.tx := rfl
@[simp] theorem State.beginFrame_free (seed : Memory) : (s.beginFrame seed).free = s.free := rfl
@[simp] theorem State.beginFrame_out (seed : Memory) : (s.beginFrame seed).out = s.out := rfl

@[simp] theorem State.endFrame_params (failed : Bool) : (s.endFrame failed).params = s.params := rfl
@[simp] theorem State.endFrame_fs (failed : Bool) : (s.endFrame failed).fs = false := rfl
@[simp] theorem State.endFrame_fail (failed : Bool) : (s.endFrame failed).fail = failed := rfl
@[simp] theorem State.endFrame_buf (failed : Bool) : (s.endFrame failed).buf = [] := rfl
@[simp] theorem State.endFrame_requests (failed : Bool) : (s.endFrame failed).requests = s.requests := rfl
@[simp] theorem State.endFrame_rx (failed : Bool) : (s.endFrame failed).rx = s.rx := rfl
@[simp] theorem State.endFrame_wr (failed : Bool) : (s.endFrame failed).wr = s.wr := rfl
@[simp] theorem State.endFrame_tx (failed : Bool) : (s.endFrame failed).tx = s.tx := rfl
@[simp] theorem State.endFrame_free (failed : Bool) : (s.endFrame failed).free = s.free := rfl
@[simp] theorem State.endFrame_out (failed : Bool) : (s.endFrame failed).out = s.out := rfl

@[simp] theorem State.store_params (b : Byte) : (s.store b).params = s.params := rfl
@[simp] theorem State.store_fs (b : Byte) : (s.store b).fs = s.fs := rfl
@[simp] theorem State.store_fail (b : Byte) : (s.store b).fail = s.fail := rfl
@[simp] theorem State.store_buf (b : Byte) : (s.store b).buf = s.buf ++ [b] := rfl
@[simp] theorem State.store_requests (b : Byte) : (s.store b).requests = s.requests := rfl
@[simp] theorem State.store_rx (b : Byte) : (s.store b).rx = s.rx := rfl
@[simp] theorem State.store_wr (b : Byte) : (s.store b).wr = s.wr := rfl
@[simp] theorem State.store_tx (b : Byte) : (s.store b).tx = s.tx := rfl
@[simp] theorem State.store_free (b : Byte) : (s.store b).free = s.free := rfl
@[simp] theorem State.store_out (b : Byte) : (s.store b).out = s.out := rfl

@[simp] theorem State.wrote_params (w : List Byte) (a : WriteAnswer) : (s.wrote w a).params = s.params := rfl
@[simp] theorem State.wrote_fs (w : List Byte) (a : WriteAnswer) : (s.wrote w a).fs = s.fs := rfl
@[simp] theorem State.wrote_fail (w : List Byte) (a : WriteAnswer) : (s.wrote w a).fail = s.fail := rfl
@[simp] theorem State.wrote_buf (w : List Byte) (a : WriteAnswer) : (s.wrote w a).buf = s.buf := rfl
@[simp] theorem State.wrote_requests (w : List Byte) (a : WriteAnswer) : (s.wrote w a).requests = s.requests := rfl
@[simp] theorem State.wrote_rx (w : List Byte) (a : WriteAnswer) : (s.wrote w a).rx = s.rx := rfl
@[simp] theorem State.wrote_wr (w : List Byte) (a : WriteAnswer) : (s.wrote w a).wr = s.wr := rfl
@[simp] theorem State.wrote_tx (w : List Byte) (a : WriteAnswer) : (s.wrote w a).tx = s.tx ++ acceptedBytes w a := rfl
@[simp] theorem State.wrote_free (w : List Byte) (a : WriteAnswer) : (s.wrote w a).free = s.free := rfl
@[simp] theorem State.wrote_out (w : List Byte) (a : WriteAnswer) : (s.wrote w a).out = ⟨.write a, false, some (w, w.length)⟩ := rfl

@[simp] theorem State.present_params (t : Transaction) : (s.present t).params = s.params := rfl
@[simp] theorem State.present_fs (t : Transaction) : (s.present t).fs = s.fs := rfl
@[simp] theorem State.present_fail (t : Transaction) : (s.present t).fail = s.fail := rfl
@[simp] theorem State.present_buf (t : Transaction) : (s.present t).buf = s.buf := rfl
@[simp] theorem State.present_requests (t : Transaction) : (s.present t).requests = t :: s.requests := rfl
@[simp] theorem State.present_rx (t : Transaction) : (s.present t).rx = s.rx := rfl
@[simp] theorem State.present_wr (t : Transaction) : (s.present t).wr = s.wr := rfl
@[simp] theorem State.present_tx (t : Transaction) : (s.present t).tx = s.tx := rfl
@[simp] theorem State.present_free (t : Transaction) : (s.present t).free = s.free := rfl
@[simp] theorem State.present_out (t : Transaction) : (s.present t).out = s.out := rfl

@[simp] theorem State.presentAll_params (ts : List Transaction) : (s.presentAll ts).params = s.params := rfl
@[simp] theorem State.presentAll_fs (ts : List Transaction) : (s.presentAll ts).fs = s.fs := rfl
@[simp] theorem State.presentAll_fail (ts : List Transaction) : (s.presentAll ts).fail = s.fail := rfl
@[simp] theorem State.presentAll_buf (ts : List Transaction) : (s.presentAll ts).buf = s.buf := rfl
@[simp] theorem State.presentAll_requests (ts : List Transaction) : (s.presentAll ts).requests = ts ++ s.requests := rfl
@[simp] theorem State.presentAll_rx (ts : List Transaction) : (s.presentAll ts).rx = s.rx := rfl
@[simp] theorem State.presentAll_wr (ts : List Transaction) : (s.presentAll ts).wr = s.wr := rfl
@[simp] theorem State.presentAll_tx (ts : List Transaction) : (s.presentAll ts).tx = s.tx := rfl
@[simp] theorem State.presentAll_free (ts : List Transaction) : (s.presentAll ts).free = s.free := rfl
@[simp] theorem State.presentAll_out (ts : List Transaction) : (s.presentAll ts).out = s.out := rfl

@[simp] theorem State.rxContext_fs : s.rxContext.fs = s.fs := rfl
@[simp] theorem State.rxContext_fail : s.rxContext.fail = s.fail := rfl
@[simp] theorem State.rxContext_len : s.rxContext.len = s.buf.length := rfl

end Sys2Proof.Machine
end

