-- ==== Sys2Proof/Laws/Ops.lean ====
section
/-! SUPPORT. The shared operations: the buffer's laws, and for each operation one lemma that says everything it can
do. -/

namespace Sys2Proof.Machine

/-! ### The buffer -/

@[simp] theorem Memory.wf_iff (cap : Nat) (m : Memory) : Memory.wf cap m = true ↔ m.length ≤ cap := by
  simp [Memory.wf]

theorem Memory.wf_empty (cap : Nat) : Memory.wf cap [] = true := by simp

theorem Memory.wf_seed {cap : Nat} (h : 3 ≤ cap) (b : Byte) : Memory.wf cap [b] = true := by
  simp; omega

theorem Memory.wf_append {cap : Nat} {m : Memory} (h : m.length < cap) (b : Byte) :
    Memory.wf cap (m.append b) = true := by
  simp [Memory.append]; omega

theorem Memory.read_append (m : Memory) (b : Byte) : (m.append b).read m.length = some b := by
  simp [Memory.read, Memory.append]

theorem Memory.read_append_of_ne (m : Memory) (b : Byte) {a : Nat} (h : a ≠ m.length) :
    (m.append b).read a = m.read a := by
  by_cases ha : a < m.length
  · simp only [Memory.read, Memory.append, List.getElem?_append_left ha]
  · have h' : m.length < a := by omega
    simp only [Memory.read, Memory.append, List.getElem?_append_right (Nat.le_of_lt h')]
    rw [List.getElem?_eq_none (by simp; omega), List.getElem?_eq_none (by omega)]

theorem Memory.ext {m n : Memory} (h : ∀ a, m.read a = n.read a) : m = n := List.ext_getElem? h

/-- The pairs of `cells` are in Host.Cell's order: addresses strictly rising. -/
theorem Memory.cells_rising (m : Memory) : m.cells.Pairwise (fun a b => a.1 < b.1) := by
  simp only [Memory.cells, List.pairwise_map]
  have : (m.zipIdx.map Prod.snd).Pairwise (· < ·) := by
    simp [List.zipIdx_map_snd, List.pairwise_lt_range']
  exact List.pairwise_map.mp this

/-! ### Parameters -/

theorem Params.valid_iff (p : Params) : p.valid = true ↔
    p.marker ≠ p.esc ∧ p.marker ^^^ p.esc ≠ xorMask ∧ p.marker ∉ p.resync
      ∧ p.resync.Pairwise (fun a b => a.toNat < b.toNat) ∧ 3 ≤ p.cap := by
  simp [Params.valid, and_assoc]

/-! ### Transport and fetch -/

theorem readByte_cases (s : State) :
    (s.rx = [] ∧ readByte s = (Config.freeRead s.free, { s with free := s.free + 1 })) ∨
      ∃ a rest, s.rx = a :: rest ∧ readByte s = (a, { s with rx := rest }) := by
  unfold readByte
  cases h : s.rx with
  | nil => exact .inl ⟨rfl, rfl⟩
  | cons a rest => exact .inr ⟨a, rest, rfl, rfl⟩

theorem readByte_cons {s : State} {a : Option Byte} {rest : List (Option Byte)} (h : s.rx = a :: rest) :
    readByte s = (a, { s with rx := rest }) := by
  simp [readByte, h]

theorem readByte_free {s : State} (h : s.rx = []) :
    readByte s = (Config.freeRead s.free, { s with free := s.free + 1 }) := by
  simp [readByte, h]

/-- Everything `readByte` can change: the list of the transport's answers, which loses its first entry, or, where it is
empty, the free counter. -/
theorem readByte_state (s : State) : (readByte s).2 =
    { s with rx := s.rx.drop 1, free := if s.rx = [] then s.free + 1 else s.free } := by
  rcases readByte_cases s with ⟨h, e⟩ | ⟨a, rest, h, e⟩ <;> rw [e] <;> cases s <;> simp_all

theorem freeWriteAnswer_allowed (index length : Nat) :
    writeAnswerAllowed length (freeWriteAnswer index length) = true := by
  unfold freeWriteAnswer
  split <;> simp_all [writeAnswerAllowed]

/-- Everything `writeBytes` can do: the listed answer or a free one, always an allowed one, and nothing but the
transport's lists, the free counter and the result port changes. -/
theorem writeBytes_next {w : List Byte} {s t : State} (h : writeBytes w s = .next t) :
    ∃ a, writeAnswerAllowed w.length a = true ∧
      ((s.wr = [] ∧ t = State.wrote { s with free := s.free + 1 } w a) ∨
        (∃ rest, s.wr = a :: rest ∧ t = State.wrote { s with wr := rest } w a)) := by
  unfold writeBytes at h
  cases hw : s.wr with
  | nil =>
    rw [hw] at h
    cases h
    exact ⟨_, freeWriteAnswer_allowed _ _, .inl ⟨rfl, rfl⟩⟩
  | cons a rest =>
    rw [hw] at h
    by_cases ha : writeAnswerAllowed w.length a = true
    · simp only [ha, if_true] at h
      cases h
      exact ⟨a, ha, .inr ⟨rest, rfl, rfl⟩⟩
    · simp [ha] at h

theorem writeBytes_free {w : List Byte} {s : State} (h : s.wr = []) :
    writeBytes w s = .next (State.wrote { s with free := s.free + 1 } w (freeWriteAnswer s.free w.length)) := by
  simp [writeBytes, h]

theorem writeBytes_listed {w : List Byte} {s : State} {a : WriteAnswer} {rest : List WriteAnswer}
    (h : s.wr = a :: rest) (ha : writeAnswerAllowed w.length a = true) :
    writeBytes w s = .next (State.wrote { s with wr := rest } w a) := by
  simp [writeBytes, h, ha]

theorem writeBytes_refused {w : List Byte} {s : State} {a : WriteAnswer} {rest : List WriteAnswer}
    (h : s.wr = a :: rest) (ha : writeAnswerAllowed w.length a = false) :
    writeBytes w s = .refused .writeAnswerOutOfRange := by
  simp [writeBytes, h, ha]

theorem fetch_nil {s : State} (h : s.requests = []) : fetch s = none := by simp [fetch, h]

theorem fetch_cons {s : State} {t : Transaction} {rest : List Transaction} (h : s.requests = t :: rest) :
    fetch s = some (t, { s with requests := rest }) := by simp [fetch, h]

/-! ### Frame operands -/

theorem withFrame_usable {f : EncodeResult} (h : f.usable = true)
    (k : Frame → Host.Outcome State Fault Refusal) : ∃ g, f = .frame g ∧ withFrame f k = k g := by
  cases f with
  | payloadTooLarge => simp [EncodeResult.usable] at h
  | frame g => exact ⟨g, rfl, by simp_all [withFrame, EncodeResult.usable]⟩

theorem withFrame_next {f : EncodeResult} {k : Frame → Host.Outcome State Fault Refusal} {t : State}
    (h : withFrame f k = .next t) : ∃ g, f = .frame g ∧ g.layoutDefined = true ∧ k g = .next t := by
  cases f with
  | payloadTooLarge => simp [withFrame] at h
  | frame g =>
    by_cases hg : g.layoutDefined = true
    · exact ⟨g, rfl, hg, by simpa [withFrame, hg] using h⟩
    · simp [withFrame, hg] at h

/-! ### A step -/

/-- Everything a step that answers a next state can have done. -/
theorem step_next {s t : State} (h : step s = .next t) :
    s.params.valid = true ∧
      ((s.requests = [] ∧ t = s) ∨
        ∃ w rest i, s.requests = w :: rest ∧ decode s.params s.rxContext w = .ok i
          ∧ exec i { s with requests := rest } = .next t) := by
  unfold step at h
  by_cases hv : s.params.valid = true
  · refine ⟨hv, ?_⟩
    rw [if_pos hv] at h
    cases hr : s.requests with
    | nil =>
      rw [fetch_nil hr] at h
      cases h
      exact .inl ⟨rfl, rfl⟩
    | cons w rest =>
      rw [fetch_cons hr] at h
      have hc : State.rxContext { s with requests := rest } = s.rxContext := rfl
      simp only [hc] at h
      cases hd : decode s.params s.rxContext w with
      | ok i =>
        rw [hd] at h
        exact .inr ⟨w, rest, i, rfl, hd, h⟩
      | error e => rw [hd] at h; cases h
  · simp [hv] at h

end Sys2Proof.Machine
end

