-- ==== Sys2Proof/Laws/Codec.lean ====
section
/-! SUPPORT. The small lemmas of the stuffing codec, of XOR and of the frame codec. -/

namespace Sys2Proof

@[simp] theorem escapeByte_escapeByte (b : Byte) : escapeByte (escapeByte b) = b := by
  simp [escapeByte]

theorem escapeByte_ne (b : Byte) : escapeByte b ≠ b := by
  intro h
  have : b ^^^ (b ^^^ xorMask) = b ^^^ b := by rw [show b ^^^ xorMask = b from h]
  rw [← BitVec.xor_assoc, BitVec.xor_self, BitVec.zero_xor] at this
  exact absurd this (by decide)

/-- The row of a byte under STUFF emits the escape pair for a reserved byte and the byte itself otherwise. -/
theorem stuffRow_emits (p : Params) (b : Byte) : Machine.StuffRow.emits p (stuffRow p b) =
    if b = p.marker ∨ b = p.esc then [p.esc, b ^^^ xorMask] else [b] := by
  unfold stuffRow
  by_cases hm : b = p.marker
  · subst hm; simp [Machine.StuffRow.emits, escapeByte]
  · by_cases he : b = p.esc
    · subst he; simp [hm, Machine.StuffRow.emits, escapeByte]
    · simp [hm, he, Machine.StuffRow.emits]

namespace Machine

@[simp] theorem stuffBytes_nil (p : Params) : stuffBytes p [] = [] := rfl

@[simp] theorem stuffBytes_cons (p : Params) (b : Byte) (rest : List Byte) :
    stuffBytes p (b :: rest) = StuffRow.emits p (stuffRow p b) ++ stuffBytes p rest := rfl

@[simp] theorem destuffBytes_nil (p : Params) : destuffBytes p [] = [] := by simp [destuffBytes]

theorem destuffBytes_tail (p : Params) : destuffBytes p [p.esc] = [] := by simp [destuffBytes]

theorem destuffBytes_pair (p : Params) (follower : Byte) (rest : List Byte) :
    destuffBytes p (p.esc :: follower :: rest) = escapeByte follower :: destuffBytes p rest := by
  simp [destuffBytes]

theorem destuffBytes_literal (p : Params) {b : Byte} (h : b ≠ p.esc) (rest : List Byte) :
    destuffBytes p (b :: rest) = b :: destuffBytes p rest := by
  cases rest <;> simp [destuffBytes, h]

@[simp] theorem xorBytes_nil : xorBytes [] = 0x00#8 := rfl

theorem foldl_xor (s : List Byte) (a : Byte) : s.foldl (· ^^^ ·) a = a ^^^ xorBytes s := by
  unfold xorBytes
  induction s generalizing a with
  | nil => simp
  | cons b s ih =>
    simp only [List.foldl_cons]
    rw [ih (a ^^^ b), ih (0x00#8 ^^^ b)]
    simp [BitVec.xor_assoc]

theorem xorBytes_cons (b : Byte) (s : List Byte) : xorBytes (b :: s) = b ^^^ xorBytes s := by
  show (b :: s).foldl (· ^^^ ·) 0x00#8 = _
  rw [List.foldl_cons, foldl_xor]
  simp

theorem byteRange_length {buffer : List Byte} {start length : Nat} (h : start + length ≤ buffer.length) :
    (byteRange buffer start length).length = length := by
  simp [byteRange]; omega

theorem byteRange_whole (buffer : List Byte) : byteRange buffer 0 buffer.length = buffer := by
  simp [byteRange]

theorem decodeBytes_short {d : List Byte} (h : d.length < 3) : decodeBytes d = .error .frameTooShort := by
  rcases d with _ | ⟨a, _ | ⟨b, _ | ⟨c, r⟩⟩⟩ <;> first | rfl | (simp at h; omega)

/-- DECODE on three bytes or more, over the header and what follows it. -/
theorem decodeBytes_cons (a c h : Byte) (tail : List Byte) : decodeBytes (a :: c :: h :: tail) =
    if h ≠ a ^^^ c then .error .headerChecksumMismatch
    else if tail = [] then .frame ⟨a, c, h, [], none⟩
    else if xorBytes tail.dropLast ≠ tail.getLastD 0#8 then .error .payloadChecksumMismatch
    else if tail.length = 1 then .frame ⟨a, c, h, [], none⟩
    else .frame ⟨a, c, h, tail.dropLast, some (tail.getLastD 0#8)⟩ := by
  unfold decodeBytes
  by_cases hh : h ≠ a ^^^ c
  · simp [hh]
  · simp only [hh, if_false]
    cases ht : tail.getLast? with
    | none =>
      rw [List.getLast?_eq_none_iff] at ht
      simp [ht]
    | some k =>
      have hne : tail ≠ [] := by rintro rfl; simp at ht
      have hr : byteRange (a :: c :: h :: tail) 3 ((a :: c :: h :: tail).length - 4) = tail.dropLast := by
        simp [byteRange, List.dropLast_eq_take]
      have hk : tail.getLastD 0#8 = k := by simp [List.getLastD_eq_getLast?, ht]
      have hn : ((a :: c :: h :: tail).length - 4 = 0) ↔ tail.length = 1 := by
        have : 0 < tail.length := List.length_pos_iff.mpr hne
        simp; omega
      simp only [checksumOf, hr, hne, hk, hn, if_false]

/-- The errors DECODE can answer. -/
theorem decodeBytes_error {d : List Byte} {k : ErrKind} (h : decodeBytes d = .error k) :
    k = .headerChecksumMismatch ∨ k = .payloadChecksumMismatch ∨ k = .frameTooShort := by
  rcases d with _ | ⟨a, _ | ⟨c, _ | ⟨hh, tail⟩⟩⟩ <;> try (cases h; simp)
  rw [decodeBytes_cons] at h
  split at h
  · cases h; simp
  · split at h
    · cases h
    · split at h
      · cases h; simp
      · split at h <;> cases h

/-- RAWBYTES of a control frame and of a data frame (R62). -/
theorem rawBytes_control (a c h : Byte) (k : Option Byte) : rawBytes ⟨a, c, h, [], k⟩ = [a, c, h] := by
  simp [rawBytes]

theorem rawBytes_data (a c h k : Byte) {p : List Byte} (hp : p ≠ []) :
    rawBytes ⟨a, c, h, p, some k⟩ = a :: c :: h :: (p ++ [k]) := by
  simp [rawBytes, hp]

end Machine

end Sys2Proof
end

