-- ==== Sys2Proof/Laws/Rows.lean ====
section
/-! SUPPORT. The row R71 selects, case by case, and what a row's meaning and RX_STEP do. -/

namespace Sys2Proof

variable {p : Params} {c : RxContext}

@[simp] theorem rxRow_none : rxRow p c none = .noByte := rfl

theorem rxRow_resync {b : Byte} (h : c.fail = true) (hb : b ∈ p.resync) : rxRow p c (some b) = .resync b := by
  simp [rxRow, h, hb]

theorem rxRow_start (hp : p.marker ∉ p.resync) (h : c.fs = false) : rxRow p c (some p.marker) = .start := by
  simp [rxRow, hp, h]

theorem rxRow_noise (hp : p.marker ∉ p.resync) (h : c.fs = true) (hl : c.len < 2) :
    rxRow p c (some p.marker) = .noise := by
  simp [rxRow, hp, h, hl]

theorem rxRow_finish (hp : p.marker ∉ p.resync) (h : c.fs = true) (hl : 2 ≤ c.len) :
    rxRow p c (some p.marker) = .finish := by
  simp [rxRow, hp, h]; omega

theorem rxRow_overflow {b : Byte} (hm : b ≠ p.marker) (hr : ¬(c.fail = true ∧ b ∈ p.resync)) (h : c.fs = true)
    (hl : p.cap ≤ c.len) : rxRow p c (some b) = .overflow b := by
  simp [rxRow, hm, hr, h, hl]

theorem rxRow_data {b : Byte} (hm : b ≠ p.marker) (hr : ¬(c.fail = true ∧ b ∈ p.resync)) (h : c.fs = true)
    (hl : c.len < p.cap) : rxRow p c (some b) = .data b := by
  simp [rxRow, hm, hr, h, hl]

theorem rxRow_ignore {b : Byte} (hm : b ≠ p.marker) (hr : ¬(c.fail = true ∧ b ∈ p.resync)) (h : c.fs = false) :
    rxRow p c (some b) = .ignore b := by
  simp [rxRow, hm, hr, h]

/-- Everything `rxRow` can answer, with the conditions it was selected under. -/
theorem rxRow_cases (p : Params) (c : RxContext) (b : Byte) :
    (c.fail = true ∧ b ∈ p.resync ∧ rxRow p c (some b) = .resync b)
    ∨ (¬(c.fail = true ∧ b ∈ p.resync) ∧
      ((b = p.marker ∧ c.fs = false ∧ rxRow p c (some b) = .start)
      ∨ (b = p.marker ∧ c.fs = true ∧ c.len < 2 ∧ rxRow p c (some b) = .noise)
      ∨ (b = p.marker ∧ c.fs = true ∧ 2 ≤ c.len ∧ rxRow p c (some b) = .finish)
      ∨ (b ≠ p.marker ∧ c.fs = true ∧ p.cap ≤ c.len ∧ rxRow p c (some b) = .overflow b)
      ∨ (b ≠ p.marker ∧ c.fs = true ∧ c.len < p.cap ∧ rxRow p c (some b) = .data b)
      ∨ (b ≠ p.marker ∧ c.fs = false ∧ rxRow p c (some b) = .ignore b))) := by
  by_cases hr : c.fail = true ∧ b ∈ p.resync
  · exact .inl ⟨hr.1, hr.2, rxRow_resync hr.1 hr.2⟩
  · refine .inr ⟨hr, ?_⟩
    by_cases hm : b = p.marker
    · subst hm
      cases hf : c.fs
      · exact .inl ⟨rfl, rfl, by simp [rxRow, hr, hf]⟩
      · rcases Nat.lt_or_ge c.len 2 with h2 | h2
        · exact .inr (.inl ⟨rfl, rfl, h2, by simp [rxRow, hr, hf, h2]⟩)
        · exact .inr (.inr (.inl ⟨rfl, rfl, h2, by simp [rxRow, hr, hf, Nat.not_lt.mpr h2]⟩))
    · cases hf : c.fs
      · simp [hm, rxRow_ignore hm hr hf]
      · rcases Nat.lt_or_ge c.len p.cap with hl | hl
        · simp [hm, rxRow_data hm hr hf hl, hl]
        · simp [hm, rxRow_overflow hm hr hf hl, hl]

namespace Machine

/-- A row's own meaning answers exactly when the row is the selected one, and then with the row's transition. -/
theorem rxUnit_next {row : RxRow} {answer : Option Byte} {s t : State} (h : rxUnit row answer s = .next t) :
    rxRow s.params s.rxContext answer = row ∧ t = takeRow row s := by
  unfold rxUnit at h
  by_cases hr : rxRow s.params s.rxContext answer = row
  · rw [if_pos hr] at h; cases h; exact ⟨hr, rfl⟩
  · rw [if_neg hr] at h; cases h

theorem rxUnit_selected {row : RxRow} {answer : Option Byte} {s : State}
    (h : rxRow s.params s.rxContext answer = row) : rxUnit row answer s = .next (takeRow row s) := by
  simp [rxUnit, h]

theorem rxUnit_unselected {row : RxRow} {answer : Option Byte} {s : State}
    (h : rxRow s.params s.rxContext answer ≠ row) : rxUnit row answer s = .refused .rowNotSelected := by
  simp [rxUnit, h]

/-- A transition never touches the parameters, the host's requests, the transport's lists or the free counter. -/
theorem takeRow_environment (row : RxRow) (s : State) :
    (takeRow row s).params = s.params ∧ (takeRow row s).requests = s.requests ∧ (takeRow row s).rx = s.rx
      ∧ (takeRow row s).wr = s.wr ∧ (takeRow row s).tx = s.tx ∧ (takeRow row s).free = s.free := by
  cases row <;> simp [takeRow]

theorem execRxStep_eq (s : State) :
    execRxStep s = .next (takeRow (rxRow s.params s.rxContext (readByte s).1) (readByte s).2) := by
  have h := readByte_state s
  simp only [execRxStep, rxTransition, h]
  rfl

/-- RX_STEP on a listed answer. -/
theorem execRxStep_cons {s : State} {a : Option Byte} {rest : List (Option Byte)} (h : s.rx = a :: rest) :
    execRxStep s = .next (takeRow (rxRow s.params s.rxContext a) { s with rx := rest }) := by
  rw [execRxStep_eq, readByte_cons h]

/-- RX_STEP where no answer is listed. -/
theorem execRxStep_free {s : State} (h : s.rx = []) :
    execRxStep s = .next (takeRow (rxRow s.params s.rxContext (Config.freeRead s.free))
      { s with free := s.free + 1 }) := by
  rw [execRxStep_eq, readByte_free h]

end Machine

end Sys2Proof
end

