-- ==== Sys2Proof/Laws/Exec.lean ====
section
/-! SUPPORT. What each meaning can do, and in `exec_next` what any instruction that answers has done: a later proof
about all instructions splits into its six cases, not into the constructors. -/

namespace Sys2Proof.Machine

theorem stuffUnit_next {row : StuffRow} {b : Byte} {s t : State} (h : stuffUnit row b s = .next t) :
    stuffRow s.params b = row ∧ t = s.answer (.unit 1 (StuffRow.emits s.params row)) := by
  unfold stuffUnit at h
  split at h
  · cases h; exact ⟨by assumption, rfl⟩
  · cases h

theorem destuffUnit_next {row : DestuffRow} {scan : List Byte} {s t : State} (h : destuffUnit row scan s = .next t) :
    destuffRow s.params scan = some row ∧ t = s.answer (.unit (DestuffRow.consumes row) (DestuffRow.emits row)) := by
  unfold destuffUnit at h
  split at h
  · cases h; exact ⟨by assumption, rfl⟩
  · cases h

theorem execChecksum_next {buffer : List Byte} {start length : Nat} {s t : State}
    (h : execChecksum buffer start length s = .next t) :
    rangeInBounds buffer start length = true ∧ t = s.answer (.byte (checksumOf buffer start length)) := by
  unfold execChecksum at h
  split at h
  · cases h; exact ⟨by assumption, rfl⟩
  · cases h

theorem execEncode_next {type address : Byte} {payload : List Byte} {maxPayload : Nat} {s t : State}
    (h : execEncode type address payload maxPayload s = .next t) :
    (payload.length ≤ maxPayload ∧ t = s.answer (.encoded (.frame (buildFrame type address payload)))) ∨
      (maxPayload < payload.length ∧ t = s.answerLogged (.encoded .payloadTooLarge)) := by
  unfold execEncode at h
  split at h
  · cases h; exact .inr ⟨by assumption, rfl⟩
  · cases h; exact .inl ⟨by omega, rfl⟩

theorem execRawbytes_next {f : EncodeResult} {s t : State} (h : execRawbytes f s = .next t) :
    ∃ g, f = .frame g ∧ g.layoutDefined = true ∧ t = s.answer (.bytes (rawBytes g)) := by
  obtain ⟨g, hf, hg, e⟩ := withFrame_next h
  cases e
  exact ⟨g, hf, hg, rfl⟩

theorem execSerialize_next {f : EncodeResult} {s t : State} (h : execSerialize f s = .next t) :
    ∃ g, f = .frame g ∧ g.layoutDefined = true ∧ t = s.answer (.bytes (wireBytes s.params g)) := by
  obtain ⟨g, hf, hg, e⟩ := withFrame_next h
  cases e
  exact ⟨g, hf, hg, rfl⟩

theorem execSend_next {f : EncodeResult} {s t : State} (h : execSend f s = .next t) :
    ∃ g a, f = .frame g ∧ g.layoutDefined = true ∧ writeAnswerAllowed (wireBytes s.params g).length a = true ∧
      ((s.wr = [] ∧ t = State.wrote { s with free := s.free + 1 } (wireBytes s.params g) a) ∨
        (∃ rest, s.wr = a :: rest ∧ t = State.wrote { s with wr := rest } (wireBytes s.params g) a)) := by
  obtain ⟨g, hf, hg, e⟩ := withFrame_next h
  obtain ⟨a, ha, hc⟩ := writeBytes_next e
  exact ⟨g, a, hf, hg, ha, hc⟩

/-- What any instruction that answers has done: a SEND, an operation that writes only the result port, a failed ENCODE,
RX_RESET, RX_STEP, or one of RX_STEP's rows. -/
theorem exec_next {i : Instr} {s t : State} (h : exec i s = .next t) :
    (∃ f, i = .send f ∧ execSend f s = .next t) ∨
    (i.receives = false ∧ (∀ f, i ≠ .send f) ∧ ∃ r, t = s.answer r ∧ ∀ x, r ≠ .rx x) ∨
    (i.receives = false ∧ (∀ f, i ≠ .send f) ∧ t = s.answerLogged (.encoded .payloadTooLarge)) ∨
    (i = .rxReset ∧ t = (s.endFrame false).answer .nothing) ∨
    (i = .rxStep ∧ t = takeRow (rxRow s.params s.rxContext (readByte s).1) (readByte s).2) ∨
    (i.receives = true ∧ i ≠ .rxStep ∧ i ≠ .rxReset ∧ ∃ a, t = takeRow (rxRow s.params s.rxContext a) s) := by
  have answered : ∀ r, i.receives = false → (∀ f, i ≠ .send f) → t = s.answer r → (∀ x, r ≠ .rx x) →
      (i.receives = false ∧ (∀ f, i ≠ .send f) ∧ ∃ r, t = s.answer r ∧ ∀ x, r ≠ .rx x) :=
    fun r h1 h2 h3 h4 => ⟨h1, h2, r, h3, h4⟩
  have row : ∀ {k : RxRow} {a : Option Byte}, i.receives = true → i ≠ .rxStep → i ≠ .rxReset →
      rxUnit k a s = .next t →
      (i.receives = true ∧ i ≠ .rxStep ∧ i ≠ .rxReset ∧ ∃ a, t = takeRow (rxRow s.params s.rxContext a) s) := by
    intro k a h1 h2 h3 hu
    obtain ⟨hk, ht⟩ := rxUnit_next hu
    exact ⟨h1, h2, h3, a, by rw [ht, hk]⟩
  cases i with
  | stuff raw => cases h; exact .inr (.inl (answered _ rfl (by simp) rfl (by simp)))
  | destuff stuffed => cases h; exact .inr (.inl (answered _ rfl (by simp) rfl (by simp)))
  | checksum buffer start length =>
    exact .inr (.inl (answered _ rfl (by simp) (execChecksum_next h).2 (by simp)))
  | encode type address payload maxPayload =>
    rcases execEncode_next h with ⟨-, ht⟩ | ⟨-, ht⟩
    · exact .inr (.inl (answered _ rfl (by simp) ht (by simp)))
    · exact .inr (.inr (.inl ⟨rfl, by simp, ht⟩))
  | decode destuffed => cases h; exact .inr (.inl (answered _ rfl (by simp) rfl (by simp)))
  | rawbytes f =>
    obtain ⟨g, -, -, ht⟩ := execRawbytes_next h
    exact .inr (.inl (answered _ rfl (by simp) ht (by simp)))
  | serialize f =>
    obtain ⟨g, -, -, ht⟩ := execSerialize_next h
    exact .inr (.inl (answered _ rfl (by simp) ht (by simp)))
  | send f => exact .inl ⟨f, rfl, h⟩
  | rxStep =>
    rw [show exec .rxStep s = execRxStep s from rfl, execRxStep_eq] at h
    cases h
    exact .inr (.inr (.inr (.inr (.inl ⟨rfl, rfl⟩))))
  | rxReset => cases h; exact .inr (.inr (.inr (.inl ⟨rfl, rfl⟩)))
  | reservedOp code => cases h
  | destuffEscPair follower => exact .inr (.inl (answered _ rfl (by simp) (destuffUnit_next h).2 (by simp)))
  | destuffEscTail => exact .inr (.inl (answered _ rfl (by simp) (destuffUnit_next h).2 (by simp)))
  | destuffLiteral b => exact .inr (.inl (answered _ rfl (by simp) (destuffUnit_next h).2 (by simp)))
  | stuffMarker => exact .inr (.inl (answered _ rfl (by simp) (stuffUnit_next h).2 (by simp)))
  | stuffEsc => exact .inr (.inl (answered _ rfl (by simp) (stuffUnit_next h).2 (by simp)))
  | stuffPlain b => exact .inr (.inl (answered _ rfl (by simp) (stuffUnit_next h).2 (by simp)))
  | rxResync01 b => exact .inr (.inr (.inr (.inr (.inr (row rfl (by simp) (by simp) h)))))
  | rxResync03 => exact .inr (.inr (.inr (.inr (.inr (row rfl (by simp) (by simp) h)))))
  | rxStart => exact .inr (.inr (.inr (.inr (.inr (row rfl (by simp) (by simp) h)))))
  | rxNoise => exact .inr (.inr (.inr (.inr (.inr (row rfl (by simp) (by simp) h)))))
  | rxEnd => exact .inr (.inr (.inr (.inr (.inr (row rfl (by simp) (by simp) h)))))
  | rxOverflow b => exact .inr (.inr (.inr (.inr (.inr (row rfl (by simp) (by simp) h)))))
  | rxData b => exact .inr (.inr (.inr (.inr (.inr (row rfl (by simp) (by simp) h)))))
  | rxIgnore b => exact .inr (.inr (.inr (.inr (.inr (row rfl (by simp) (by simp) h)))))
  | rxNobyte =>
    exact .inr (.inr (.inr (.inr (.inr (row (k := .noByte) (a := none) rfl (by simp) (by simp) h)))))

/-- The instruction of the selected row takes that row's transition. -/
theorem exec_selectedRow (s : State) (a : Option Byte) :
    exec (rxRow s.params s.rxContext a).instr s = .next (takeRow (rxRow s.params s.rxContext a) s) := by
  have go : ∀ {k : RxRow}, rxRow s.params s.rxContext a = k → rxUnit k a s = .next (takeRow k s) :=
    fun h => rxUnit_selected h
  cases a with
  | none => exact go rfl
  | some b =>
    rcases rxRow_cases s.params s.rxContext b with ⟨-, -, e⟩ | ⟨-, ⟨hm, -, e⟩ | ⟨hm, -, -, e⟩ | ⟨hm, -, -, e⟩ |
      ⟨-, -, -, e⟩ | ⟨-, -, -, e⟩ | ⟨-, -, e⟩⟩
    · rw [e]
      show exec (if b = 0x03#8 then Instr.rxResync03 else Instr.rxResync01 b) s = _
      by_cases hb : b = 0x03#8
      · subst hb; exact go e
      · rw [if_neg hb]; exact go e
    all_goals
      rw [e]
      try subst hm
      exact go e

end Sys2Proof.Machine
end

