-- ==== Sys2Proof/Laws/PerInstr.lean ====
section
/-! SUPPORT. The family OwnPort, for every instruction as syntax: the transaction `encode` gives it stands on the port
of its table format (OP, RXBYTE or STUFFBYTE), and an operation carries its own select code there (R70, R76). -/

namespace Sys2Proof

/-- The table's format of an instruction's row, with the select code of an operation (R70, R76): the ports a transaction
can stand on. -/
def Instr.ownTransaction : Instr → Transaction → Prop
  | .stuff _, .op select _ => select = 0x0#4
  | .destuff _, .op select _ => select = 0x1#4
  | .checksum _ _ _, .op select _ => select = 0x2#4
  | .encode _ _ _ _, .op select _ => select = 0x3#4
  | .decode _, .op select _ => select = 0x4#4
  | .rawbytes _, .op select _ => select = 0x5#4
  | .serialize _, .op select _ => select = 0x6#4
  | .send _, .op select _ => select = 0x7#4
  | .rxStep, .op select _ => select = 0x8#4
  | .rxReset, .op select _ => select = 0x9#4
  | .reservedOp _, .op select _ => 0xA ≤ select.toNat
  | .rxResync01 b, .rx a => a = some b ∧ b ≠ 0x03#8
  | .rxResync03, .rx a => a = some 0x03#8
  | .rxStart, .rx a => a ≠ none
  | .rxNoise, .rx a => a ≠ none
  | .rxEnd, .rx a => a ≠ none
  | .rxOverflow b, .rx a => a = some b
  | .rxData b, .rx a => a = some b
  | .rxIgnore b, .rx a => a = some b
  | .rxNobyte, .rx a => a = none
  | .destuffEscPair f, .destuffUnit rest => rest.length = 2 ∧ rest.getLast? = some f
  | .destuffEscTail, .destuffUnit rest => rest.length = 1
  | .destuffLiteral b, .destuffUnit rest => rest = [b]
  | .stuffMarker, .stuffUnit _ => True
  | .stuffEsc, .stuffUnit _ => True
  | .stuffPlain b, .stuffUnit a => a = b
  | _, _ => False

namespace Laws.OwnPort

def Statement (i : Instr) : Prop := ∀ p : Params, i.wellFormed = true → i.ownTransaction (encode p i)

theorem stuff (raw : List Byte) : Statement (.stuff raw) := fun _ _ => rfl
theorem destuff (stuffed : List Byte) : Statement (.destuff stuffed) := fun _ _ => rfl
theorem checksum (buffer : List Byte) (start length : Nat) : Statement (.checksum buffer start length) :=
  fun _ _ => rfl
theorem encode (type address : Byte) (payload : List Byte) (maxPayload : Nat) :
    Statement (.encode type address payload maxPayload) := fun _ _ => rfl
theorem decode (destuffed : List Byte) : Statement (.decode destuffed) := fun _ _ => rfl
theorem rawbytes (f : EncodeResult) : Statement (.rawbytes f) := fun _ _ => rfl
theorem serialize (f : EncodeResult) : Statement (.serialize f) := fun _ _ => rfl
theorem send (f : EncodeResult) : Statement (.send f) := fun _ _ => rfl
theorem rxStep : Statement .rxStep := fun _ _ => rfl
theorem rxReset : Statement .rxReset := fun _ _ => rfl
theorem reservedOp (code : BitVec 4) : Statement (.reservedOp code) := fun _ h => by
  simpa [Instr.wellFormed, Instr.ownTransaction, Sys2Proof.encode] using h
theorem rxResync01 (b : Byte) : Statement (.rxResync01 b) := fun _ h => ⟨rfl, by simpa [Instr.wellFormed] using h⟩
theorem rxResync03 : Statement .rxResync03 := fun _ _ => rfl
theorem rxStart : Statement .rxStart := fun _ _ => Option.some_ne_none _
theorem rxNoise : Statement .rxNoise := fun _ _ => Option.some_ne_none _
theorem rxEnd : Statement .rxEnd := fun _ _ => Option.some_ne_none _
theorem rxOverflow (b : Byte) : Statement (.rxOverflow b) := fun _ _ => rfl
theorem rxData (b : Byte) : Statement (.rxData b) := fun _ _ => rfl
theorem rxIgnore (b : Byte) : Statement (.rxIgnore b) := fun _ _ => rfl
theorem rxNobyte : Statement .rxNobyte := fun _ _ => rfl
theorem destuffEscPair (follower : Byte) : Statement (.destuffEscPair follower) := fun _ _ => ⟨rfl, rfl⟩
theorem destuffEscTail : Statement .destuffEscTail := fun _ _ => rfl
theorem destuffLiteral (b : Byte) : Statement (.destuffLiteral b) := fun _ _ => rfl
theorem stuffMarker : Statement .stuffMarker := fun _ _ => trivial
theorem stuffEsc : Statement .stuffEsc := fun _ _ => trivial
theorem stuffPlain (b : Byte) : Statement (.stuffPlain b) := fun _ _ => rfl

end Laws.OwnPort

end Sys2Proof
end

