-- ==== Sys2Proof/Laws/Run.lean ====
section
/-! SUPPORT. Steps and runs: a step on a decoded transaction, and a run cut into its first step or into two runs. -/

namespace Sys2Proof.Machine

theorem step_decoded {s : State} {w : Transaction} {rest : List Transaction} {i : Instr}
    (hp : s.params.valid = true) (hr : s.requests = w :: rest) (hd : decode s.params s.rxContext w = .ok i) :
    step s = exec i { s with requests := rest } := by
  unfold step
  rw [if_pos hp, fetch_cons hr]
  have hc : State.rxContext { s with requests := rest } = s.rxContext := rfl
  simp only [hc, hd]

/-- A step on the line `RX b` or `RX -` takes the selected row's transition. -/
theorem step_rxLine {s : State} {a : Option Byte} {rest : List Transaction} (hp : s.params.valid = true)
    (hr : s.requests = .rx a :: rest) :
    step s = .next (takeRow (rxRow s.params s.rxContext a) { s with requests := rest }) := by
  rw [step_decoded hp hr (i := (rxRow s.params s.rxContext a).instr) rfl]
  exact exec_selectedRow { s with requests := rest } a

theorem run_succ {s t : State} (k : Nat) (h : step s = .next t) :
    Host.Core.run Sys2Proof.core (k + 1) s = Host.Core.run Sys2Proof.core k t := by
  have h' : Sys2Proof.core.step s = .next t := h
  simp only [Host.Core.run, h']

theorem run_rxLine {s : State} {a : Option Byte} {rest : List Transaction} (hp : s.params.valid = true) (k : Nat)
    (hr : s.requests = .rx a :: rest) :
    Host.Core.run Sys2Proof.core (k + 1) s
      = Host.Core.run Sys2Proof.core k (takeRow (rxRow s.params s.rxContext a) { s with requests := rest }) :=
  run_succ k (step_rxLine hp hr)

theorem run_add (a b : Nat) (s t : State) (h : Host.Core.run Sys2Proof.core a s = .next t) :
    Host.Core.run Sys2Proof.core (a + b) s = Host.Core.run Sys2Proof.core b t := by
  induction a generalizing s with
  | zero => cases h; simp
  | succ n ih =>
    rw [show n + 1 + b = (n + b) + 1 by omega]
    cases hs : step s with
    | next u => rw [run_succ _ hs] at h ⊢; exact ih u h
    | fault r => cases r
    | refused r =>
      have h' : Sys2Proof.core.step s = .refused r := hs
      simp [Host.Core.run, h'] at h

end Sys2Proof.Machine
end

