-- ==== Sys2Proof/Machine/Text.lean ====
section
/-! DEFINITION. The textual form of operations, results and states (spec/30_encoding.md R78). Nothing of the machine
depends on it. -/

namespace Sys2Proof.Machine

def hexDigit (n : Nat) : Char :=
  if n < 10 then Char.ofNat (48 + n) else Char.ofNat (55 + n)

/-- "Bytes are two hex digits without prefix". -/
def byteText (b : Byte) : String :=
  String.singleton (hexDigit (b.toNat / 16)) ++ String.singleton (hexDigit (b.toNat % 16))

/-- "A byte sequence is bytes separated by spaces inside `[ ]`". -/
def bytesText (s : List Byte) : String := "[" ++ String.intercalate " " (s.map byteText) ++ "]"

/-- The record brackets of `Frame{...}` (codes 123 and 125). -/
def bracedText (s : String) : String :=
  String.singleton (Char.ofNat 123) ++ s ++ String.singleton (Char.ofNat 125)

def frameText (f : Frame) : String :=
  "Frame" ++ bracedText ("a=" ++ byteText f.address ++ ", c=" ++ byteText f.control ++ ", h="
    ++ byteText f.headerChecksum ++ ", p=" ++ bytesText f.payload ++ ", k="
    ++ (match f.payloadChecksum with | none => "none" | some k => byteText k))

/-- The five kinds "in code order". -/
def errText : ErrKind → String
  | .headerChecksumMismatch => "Err(HCS)"
  | .payloadChecksumMismatch => "Err(PCS)"
  | .frameTooLarge => "Err(BIG)"
  | .payloadTooLargeForEncode => "Err(ENC)"
  | .frameTooShort => "Err(SHORT)"

def encodeResultText : EncodeResult → String
  | .frame f => frameText f
  | .payloadTooLarge => errText .payloadTooLargeForEncode

def resultText : Result → String
  | .nothing => "-"
  | .bytes b => bytesText b
  | .byte b => byteText b
  | .encoded r => encodeResultText r
  | .decoded (.frame f) => frameText f
  | .decoded (.error k) => errText k
  | .write (.written n) => toString n
  | .write .error => "Error"
  | .rx .noByteAvailable => "NoByte"
  | .rx .incomplete => "Inc"
  | .rx (.frame f) => frameText f
  | .rx (.error k) => errText k
  | .unit consumed emitted => toString consumed ++ " " ++ bytesText emitted

/-- "State is written `(Idle|Acc, buf=[...], fail=0|1)`". -/
def stateText (s : State) : String :=
  "(" ++ (if s.fs then "Acc" else "Idle") ++ ", buf=" ++ bytesText s.buf ++ ", fail="
    ++ (if s.fail then "1" else "0") ++ ")"

/-- The `MNEMONIC operands` part of a line; `RX b` and `RX -` for RX_STEP with the transport's answer. -/
def instrText : Instr → String
  | .stuff raw => "STUFF " ++ bytesText raw
  | .destuff stuffed => "DESTUFF " ++ bytesText stuffed
  | .checksum buffer start length =>
    "CHECKSUM " ++ bytesText buffer ++ " " ++ toString start ++ " " ++ toString length
  | .encode type address payload maxPayload =>
    "ENCODE type=" ++ byteText type ++ " address=" ++ byteText address ++ " payload=" ++ bytesText payload
      ++ " maxPayload=" ++ toString maxPayload
  | .decode destuffed => "DECODE " ++ bytesText destuffed
  | .rawbytes f => "RAWBYTES " ++ encodeResultText f
  | .serialize f => "SERIALIZE " ++ encodeResultText f
  | .send f => "SEND " ++ encodeResultText f
  | .rxStep => "RX_STEP"
  | .rxReset => "RX_RESET"
  | .reservedOp code => "RESERVED_OP " ++ toString code.toNat
  | .rxResync01 b => "RX " ++ byteText b
  | .rxResync03 => "RX 03"
  | .rxStart => "RX M"
  | .rxNoise => "RX M"
  | .rxEnd => "RX M"
  | .rxOverflow b => "RX " ++ byteText b
  | .rxData b => "RX " ++ byteText b
  | .rxIgnore b => "RX " ++ byteText b
  | .rxNobyte => "RX -"
  | .destuffEscPair follower => "DESTUFF [E " ++ byteText follower ++ "]"
  | .destuffEscTail => "DESTUFF [E]"
  | .destuffLiteral b => "DESTUFF [" ++ byteText b ++ "]"
  | .stuffMarker => "STUFF [M]"
  | .stuffEsc => "STUFF [E]"
  | .stuffPlain b => "STUFF [" ++ byteText b ++ "]"

/-- "One operation per line: `MNEMONIC operands -> result`". -/
def lineText (i : Instr) (r : Result) : String := instrText i ++ " -> " ++ resultText r

end Sys2Proof.Machine
end

