-- ==== Sys2Proof/Tests/Slice0.lean ====
section
/-! SUPPORT. Tests. Expected results are the vectors V<n> and programs P<n> of spec/95_test_vectors.md, or are worked by
hand from the rule named. Words are written out bit by bit from spec/30_encoding.md R70, R71, R72. The `witness_`
theorems meet the hypotheses of the statement they are named after. -/

namespace Sys2Proof.Tests

open Sys2Proof.Machine

/-! ### Helpers -/

def port : Host.Outcome State Fault Refusal → Option Result
  | .next t => some t.out.result
  | .fault _ => none
  | .refused _ => none

def stop : Host.Outcome State Fault Refusal → Option Refusal
  | .next _ => none
  | .fault _ => none
  | .refused r => some r

/-- `fs`, `buf`, `fail` and the result port after a step. -/
def after : Host.Outcome State Fault Refusal → Option (Bool × List Byte × Bool × Result)
  | .next t => some (t.fs, t.buf, t.fail, t.out.result)
  | .fault _ => none
  | .refused _ => none

def mk (fs : Bool) (buf : List Byte) (fail : Bool) : State := { State.reset with fs := fs, buf := buf, fail := fail }

/-- The same with `P.CAP = cap`. -/
def mkCap (cap : Nat) (fs : Bool) (buf : List Byte) (fail : Bool) : State :=
  { mk fs buf fail with params := { Params.standard with cap := cap } }

/-- One RX_STEP answered with `a`. -/
def rx (s : State) (a : Option Byte) : Host.Outcome State Fault Refusal := exec .rxStep { s with rx := [a] }

/-- The frame of V40. -/
def ctl : Frame := ⟨0x01#8, 0x03#8, 0x02#8, [], none⟩

/-- The frame of V41. -/
def dat : Frame := ⟨0x03#8, 0x00#8, 0x03#8, [0x7E#8], some 0x7E#8⟩

/-! ### Ill-formed terms, one for each check -/

theorem test_wf_checksum : (Instr.checksum [0x10#8, 0x20#8] 1 2).wellFormed = false := by decide
theorem test_wf_rawbytes_failed : (Instr.rawbytes .payloadTooLarge).wellFormed = false := by decide
theorem test_wf_rawbytes_layout :
    (Instr.rawbytes (.frame ⟨0x01#8, 0x03#8, 0x02#8, [0x05#8], none⟩)).wellFormed = false := by decide
theorem test_wf_serialize_failed : (Instr.serialize .payloadTooLarge).wellFormed = false := by decide
theorem test_wf_serialize_layout :
    (Instr.serialize (.frame ⟨0x01#8, 0x03#8, 0x02#8, [], some 0x00#8⟩)).wellFormed = false := by decide
theorem test_wf_send_failed : (Instr.send .payloadTooLarge).wellFormed = false := by decide
theorem test_wf_reserved : (Instr.reservedOp 0x3#4).wellFormed = false := by decide
theorem test_wf_resync01 : (Instr.rxResync01 0x03#8).wellFormed = false := by decide
theorem test_frame_w1 : Frame.wellFormed ⟨0x01#8, 0x03#8, 0x03#8, [], none⟩ = false := by decide
theorem test_frame_w2 : Frame.wellFormed ⟨0x01#8, 0x03#8, 0x02#8, [], some 0x00#8⟩ = false := by decide
theorem test_frame_w3 : Frame.wellFormed ⟨0x03#8, 0x00#8, 0x03#8, [0x7E#8], some 0x7F#8⟩ = false := by decide
theorem test_params_equal : { Params.standard with esc := 0x7E#8 }.valid = false := by decide
theorem test_params_xor : { Params.standard with esc := 0x5E#8 }.valid = false := by decide
theorem test_params_resync : { Params.standard with resync := [0x01#8, 0x7E#8] }.valid = false := by decide
theorem test_params_order : { Params.standard with resync := [0x03#8, 0x01#8] }.valid = false := by decide
theorem test_params_cap : { Params.standard with cap := 2 }.valid = false := by decide
theorem test_params_cap3 : { Params.standard with cap := 3, resync := [] }.valid = true := by decide
theorem test_step_invalid : stop (step (mkCap 2 false [] false)) = some .invalidParameters := by decide

/-! ### Decoding: each constructor from its word -/

/-- The context of a state after reset. -/
def idle : RxContext := ⟨false, false, 0⟩

def dec (c : RxContext) (t : Transaction) : Except DecodeError Instr := decode Params.standard c t

theorem test_decode_stuff : dec idle (.op 0b0000#4 (.bytes [0x7E#8])) = .ok (.stuff [0x7E#8]) := rfl
theorem test_decode_destuff : dec idle (.op 0b0001#4 (.bytes [0x7D#8])) = .ok (.destuff [0x7D#8]) := rfl
theorem test_decode_checksum : dec idle (.op 0b0010#4 (.range [0x10#8] 1 0)) = .ok (.checksum [0x10#8] 1 0) := rfl
theorem test_decode_encode : dec idle (.op 0b0011#4 (.construct 0x03#8 0x01#8 [] 5)) = .ok (.encode 0x03#8 0x01#8 [] 5) := rfl
theorem test_decode_decode : dec idle (.op 0b0100#4 (.bytes [0x01#8])) = .ok (.decode [0x01#8]) := rfl
theorem test_decode_rawbytes : dec idle (.op 0b0101#4 (.frame (.frame ctl))) = .ok (.rawbytes (.frame ctl)) := rfl
theorem test_decode_serialize : dec idle (.op 0b0110#4 (.frame (.frame dat))) = .ok (.serialize (.frame dat)) := rfl
theorem test_decode_send : dec idle (.op 0b0111#4 (.frame .payloadTooLarge)) = .ok (.send .payloadTooLarge) := rfl
theorem test_decode_rxStep : dec idle (.op 0b1000#4 .none) = .ok .rxStep := rfl
theorem test_decode_rxReset : dec idle (.op 0b1001#4 .none) = .ok .rxReset := rfl
theorem test_decode_reserved_a : dec idle (.op 0b1010#4 .none) = .ok (.reservedOp 0xA#4) := rfl
theorem test_decode_reserved_f : dec idle (.op 0b1111#4 (.bytes [])) = .ok (.reservedOp 0xF#4) := rfl
theorem test_decode_shape : dec idle (.op 0b0000#4 .none) = .error (.operandShape 0x0#4) := rfl
theorem test_decode_rx_resync01 : dec ⟨true, true, 2⟩ (.rx (some 0b00000001#8)) = .ok (.rxResync01 0x01#8) := rfl
theorem test_decode_rx_resync03 : dec ⟨true, true, 16⟩ (.rx (some 0b00000011#8)) = .ok .rxResync03 := rfl
theorem test_decode_rx_start : dec ⟨false, true, 0⟩ (.rx (some 0b01111110#8)) = .ok .rxStart := rfl
theorem test_decode_rx_noise : dec ⟨true, false, 1⟩ (.rx (some 0b01111110#8)) = .ok .rxNoise := rfl
theorem test_decode_rx_end : dec ⟨true, false, 2⟩ (.rx (some 0b01111110#8)) = .ok .rxEnd := rfl
theorem test_decode_rx_overflow : dec ⟨true, false, 16⟩ (.rx (some 0b00000011#8)) = .ok (.rxOverflow 0x03#8) := rfl
theorem test_decode_rx_data : dec ⟨true, false, 15⟩ (.rx (some 0b01111101#8)) = .ok (.rxData 0x7D#8) := rfl
theorem test_decode_rx_ignore : dec idle (.rx (some 0b00000001#8)) = .ok (.rxIgnore 0x01#8) := rfl
theorem test_decode_rx_nobyte : dec ⟨false, true, 0⟩ (.rx none) = .ok .rxNobyte := rfl
theorem test_decode_pair : dec idle (.destuffUnit [0b01111101#8, 0b01111101#8, 0x00#8]) = .ok (.destuffEscPair 0x7D#8) := rfl
theorem test_decode_tail : dec idle (.destuffUnit [0b01111101#8]) = .ok .destuffEscTail := rfl
theorem test_decode_literal : dec idle (.destuffUnit [0b01111110#8, 0x7D#8]) = .ok (.destuffLiteral 0x7E#8) := rfl
theorem test_decode_stuff_marker : dec idle (.stuffUnit 0b01111110#8) = .ok .stuffMarker := rfl
theorem test_decode_stuff_esc : dec idle (.stuffUnit 0b01111101#8) = .ok .stuffEsc := rfl
theorem test_decode_stuff_plain : dec idle (.stuffUnit 0b01011110#8) = .ok (.stuffPlain 0x5E#8) := rfl

theorem test_table_op : decodeTableWord 8 0b00001001 = some .rxReset := by decide
theorem test_table_marker : decodeTableWord 8 0b01111110 = some .rxStart := by decide
theorem test_table_pair : decodeTableWord 16 0b0101111001111101 = some (.destuffEscPair 0x5E#8) := by decide
theorem test_table_step :
    after (step (State.reset.withFetchWord 8 0b01111110)) = some (true, [], false, .rx .incomplete) := by decide

/-! ### The instructions -/

/-- V5. -/
theorem test_stuff_v5 : port (exec (.stuff [0x7D#8, 0x5E#8]) State.reset)
    = some (.bytes [0x7D#8, 0x5D#8, 0x5E#8]) := by decide

/-- V7. -/
theorem test_stuff_v7 : port (exec (.stuff [0x7E#8, 0x10#8, 0x6E#8, 0x7D#8, 0x01#8, 0x7C#8]) State.reset)
    = some (.bytes [0x7D#8, 0x5E#8, 0x10#8, 0x6E#8, 0x7D#8, 0x5D#8, 0x01#8, 0x7C#8]) := by decide

/-- V13. -/
theorem test_destuff_v13 : port (exec (.destuff [0x7D#8, 0x7D#8, 0x7D#8]) State.reset)
    = some (.bytes [0x5D#8]) := by decide

/-- V21. -/
theorem test_destuff_v21 :
    port (exec (.destuff [0x03#8, 0x00#8, 0x03#8, 0x7D#8, 0x5E#8, 0x7D#8, 0x5E#8]) State.reset)
    = some (.bytes [0x03#8, 0x00#8, 0x03#8, 0x7E#8, 0x7E#8]) := by decide

/-- V34. -/
theorem test_checksum_v34 : port (exec (.checksum [0x10#8, 0x20#8, 0x30#8, 0x40#8] 1 2) State.reset)
    = some (.byte 0x10#8) := by decide

/-- V36. -/
theorem test_checksum_v36 : stop (exec (.checksum [0x10#8, 0x20#8, 0x30#8, 0x40#8] 3 2) State.reset)
    = some .checksumOutOfRange := by decide

/-- V42. -/
theorem test_encode_v42 : port (exec (.encode 0x10#8 0x7E#8 [0x7D#8, 0x01#8] 16) State.reset)
    = some (.encoded (.frame ⟨0x7E#8, 0x10#8, 0x6E#8, [0x7D#8, 0x01#8], some 0x7C#8⟩)) := by decide

/-- V48. -/
theorem test_encode_v48 : exec (.encode 0x00#8 0x00#8 [0x01#8, 0x02#8, 0x03#8] 2) State.reset
    = .next { State.reset with out := ⟨.encoded .payloadTooLarge, true, none⟩ } := rfl

/-- V62. -/
theorem test_decode_v62 : port (exec (.decode [0x01#8, 0x03#8, 0x02#8, 0x00#8]) State.reset)
    = some (.decoded (.frame ctl)) := by decide

/-- V68. -/
theorem test_decode_v68 : port (exec (.decode [0x01#8, 0x03#8, 0x03#8, 0x05#8]) State.reset)
    = some (.decoded (.error .headerChecksumMismatch)) := by decide

/-- V41. -/
theorem test_rawbytes_v41 : port (exec (.rawbytes (.frame dat)) State.reset)
    = some (.bytes [0x03#8, 0x00#8, 0x03#8, 0x7E#8, 0x7E#8]) := by decide

/-- V48, the RAWBYTES column. -/
theorem test_rawbytes_v48 : stop (exec (.rawbytes .payloadTooLarge) State.reset) = some .failedEncodeOperand := by
  decide

/-- V43. -/
theorem test_serialize_v43 :
    port (exec (.serialize (.frame ⟨0x7F#8, 0x01#8, 0x7E#8, [], none⟩)) State.reset)
    = some (.bytes [0x7E#8, 0x7F#8, 0x01#8, 0x7D#8, 0x5E#8, 0x7E#8]) := by decide

/-- U5: both directions of W2. -/
theorem test_serialize_u5 :
    stop (exec (.serialize (.frame ⟨0x01#8, 0x03#8, 0x02#8, [0x05#8], none⟩)) State.reset)
    = some .frameLayoutUndefined := by decide

/-- P1, the SEND line and its transmit stream. -/
theorem test_send_p1 : exec (.send (.frame dat)) { State.reset with wr := [.written 9] } = .next { State.reset with
    tx := [0x7E#8, 0x03#8, 0x00#8, 0x03#8, 0x7D#8, 0x5E#8, 0x7D#8, 0x5E#8, 0x7E#8]
    out := ⟨.write (.written 9), false,
      some ([0x7E#8, 0x03#8, 0x00#8, 0x03#8, 0x7D#8, 0x5E#8, 0x7D#8, 0x5E#8, 0x7E#8], 9)⟩ } := rfl

/-- R236, U9. -/
theorem test_send_u9 : stop (exec (.send (.frame ctl)) { State.reset with wr := [.written 6] })
    = some .writeAnswerOutOfRange := by decide

/-- V93. -/
theorem test_rx_v93 : after (rx (mk true [0x01#8, 0x03#8, 0x02#8] false) (some 0x7E#8))
    = some (false, [], false, .rx (.frame ctl)) := by decide

/-- V102. -/
theorem test_rx_v102 : after (rx (mkCap 4 true [0x0A#8, 0x0B#8, 0x0C#8, 0x0D#8] false) (some 0x7E#8))
    = some (false, [], true, .rx (.error .headerChecksumMismatch)) := by decide

/-- V104. -/
theorem test_reset_v104 : after (exec .rxReset (mk false [] true)) = some (false, [], false, .nothing) := by decide

/-- U10. -/
theorem test_reserved : stop (exec (.reservedOp 0xC#4) State.reset) = some (.reservedOperation 0xC#4) := by decide

/-- V105. -/
theorem test_resync01_v105 : after (exec (.rxResync01 0x01#8) (mk true [0x09#8, 0x09#8] true))
    = some (true, [0x01#8], false, .rx .incomplete) := by decide

/-- V106. -/
theorem test_resync03_v106 : after (exec .rxResync03 (mkCap 4 true [0x0A#8, 0x0B#8, 0x0C#8, 0x0D#8] true))
    = some (true, [0x03#8], false, .rx .incomplete) := by decide

/-- V83. -/
theorem test_start_v83 : after (exec .rxStart (mk false [] true)) = some (true, [], false, .rx .incomplete) := by decide

/-- V91. -/
theorem test_noise_v91 : after (exec .rxNoise (mk true [0x05#8] false))
    = some (true, [0x05#8], false, .rx .incomplete) := by decide

/-- V92. -/
theorem test_end_v92 : after (exec .rxEnd (mk true [0x05#8, 0x06#8] false))
    = some (false, [], true, .rx (.error .frameTooShort)) := by decide

/-- V98. -/
theorem test_end_v98 : after (exec .rxEnd (mk true [0x01#8, 0x03#8, 0x02#8, 0x7D#8] false))
    = some (false, [], false, .rx (.frame ctl)) := by decide

/-- V101. -/
theorem test_overflow_v101 : after (exec (.rxOverflow 0x0E#8) (mkCap 4 true [0x0A#8, 0x0B#8, 0x0C#8, 0x0D#8] false))
    = some (true, [0x0A#8, 0x0B#8, 0x0C#8, 0x0D#8], false, .rx (.error .frameTooLarge)) := by decide

/-- V96. -/
theorem test_data_v96 : after (exec (.rxData 0x7D#8) (mk true [0x03#8] false))
    = some (true, [0x03#8, 0x7D#8], false, .rx .incomplete) := by decide

/-- V100, the last free cell. -/
theorem test_data_v100 : after (exec (.rxData 0x0D#8) (mkCap 4 true [0x0A#8, 0x0B#8, 0x0C#8] false))
    = some (true, [0x0A#8, 0x0B#8, 0x0C#8, 0x0D#8], false, .rx .incomplete) := by decide

/-- V86. -/
theorem test_ignore_v86 : after (exec (.rxIgnore 0x55#8) (mk false [] true))
    = some (false, [], true, .rx .incomplete) := by decide

/-- V81. -/
theorem test_nobyte_v81 : after (exec .rxNobyte (mk true [0x01#8, 0x03#8] false))
    = some (true, [0x01#8, 0x03#8], false, .rx .noByteAvailable) := by decide

/-- V16's unit. -/
theorem test_pair_v16 : port (exec (.destuffEscPair 0x00#8) State.reset) = some (.unit 2 [0x20#8]) := by decide

/-- V10's unit. -/
theorem test_tail_v10 : port (exec .destuffEscTail State.reset) = some (.unit 1 []) := by decide

/-- V18's unit. -/
theorem test_literal_v18 : port (exec (.destuffLiteral 0x7E#8) State.reset) = some (.unit 1 [0x7E#8]) := by decide

/-- V2's unit. -/
theorem test_marker_v2 : port (exec .stuffMarker State.reset) = some (.unit 1 [0x7D#8, 0x5E#8]) := by decide

/-- V3's unit. -/
theorem test_esc_v3 : port (exec .stuffEsc State.reset) = some (.unit 1 [0x7D#8, 0x5D#8]) := by decide

/-- V4's unit. -/
theorem test_plain_v4 : port (exec (.stuffPlain 0x5E#8) State.reset) = some (.unit 1 [0x5E#8]) := by decide

/-- R122, D11: the sentinel's `valid` bit, beside the all-zero frame that is genuine. -/
theorem test_sentinel : EncodeResult.payloadTooLarge.record.1 = false
    ∧ (EncodeResult.frame EncodeResult.payloadTooLarge.record.2).record.1 = true := by decide

/-- R79: LOOPBACK of V40 feeds its wire form; of a frame violating W2 there is none (log entry 28). -/
theorem test_loopback : loopback Params.standard ctl
      = some [.rx (some 0x7E#8), .rx (some 0x01#8), .rx (some 0x03#8), .rx (some 0x02#8), .rx (some 0x7E#8)]
    ∧ loopback Params.standard ⟨0x01#8, 0x03#8, 0x02#8, [0x05#8], none⟩ = none := by decide

/-- R78: the first worked line of R90. -/
theorem test_text : lineText (.stuff [0x03#8, 0x7E#8]) (.bytes [0x03#8, 0x7D#8, 0x5E#8])
    = "STUFF [03 7E] -> [03 7D 5E]" := by decide

/-- R78: a state. -/
theorem test_text_state : stateText (mk true [0x0A#8, 0x0B#8] false) = "(Acc, buf=[0A 0B], fail=0)" := by decide

/-! ### Witnesses -/

theorem witness_StuffOutputIsUnambiguous : State.reset.params.valid = true := by decide

theorem witness_StuffRowsEmitTheirUnit : State.reset.params.valid = true
    ∧ (0x5E#8 : Byte) ≠ State.reset.params.marker ∧ (0x5E#8 : Byte) ≠ State.reset.params.esc
    ∧ 0x7E#8 = State.reset.params.marker ∧ 0x7D#8 = State.reset.params.esc := by decide

theorem witness_DestuffRowsEmitTheirUnit :
    (0x7E#8 : Byte) ≠ State.reset.params.esc ∧ 0x7D#8 = State.reset.params.esc := by decide

theorem witness_ChecksumXorsTheRange : 3 + 1 ≤ [0x10#8, 0x20#8, 0x30#8, 0x40#8].length := by decide

theorem witness_ChecksumSplitsAndIgnoresOrder : [0x01#8, 0x02#8, 0x03#8].Perm [0x01#8, 0x03#8, 0x02#8]
    ∧ 3 ≤ [0x01#8, 0x02#8, 0x03#8].length := by decide

theorem witness_ChecksumDetectsOneChangedByte : 1 + 2 ≤ [0x10#8, 0x20#8, 0x30#8].length ∧ 1 ≤ 2 ∧ 2 < 1 + 2
    ∧ [0x10#8, 0x20#8, 0x30#8][2]? ≠ some 0x31#8 := by decide

theorem witness_EncodeBuildsTheFrame : [0x01#8, 0x02#8].length ≤ 2 ∧ 2 < [0x01#8, 0x02#8, 0x03#8].length
    ∧ ([] : List Byte).length ≤ 0 ∧ ([0x01#8, 0x02#8] : List Byte) ≠ [] := by decide

theorem witness_ReturnedFrames_encode : ∃ t, exec (.encode 0x00#8 0x03#8 [0x7E#8] 1) State.reset = .next t
    ∧ t.out.result = .encoded (.frame dat) := ⟨_, rfl, rfl⟩

theorem witness_ReturnedFrames_decode :
    ∃ t, exec (.decode [0x03#8, 0x00#8, 0x03#8, 0x7E#8, 0x7E#8]) State.reset = .next t
      ∧ t.out.result = .decoded (.frame dat) := ⟨_, rfl, rfl⟩

theorem witness_ReturnedFrames_rx : ∃ t, exec .rxEnd (mk true [0x01#8, 0x03#8, 0x02#8] false) = .next t
    ∧ t.out.result = .rx (.frame ctl) := ⟨_, rfl, rfl⟩

theorem witness_HeaderErrorIffHeaderXorNonzero :
    3 ≤ [0x01#8, 0x03#8, 0x03#8].length ∧ 3 ≤ [0x01#8, 0x03#8, 0x02#8].length := by decide

theorem witness_RawbytesLaysOutTheFrame : ([0x7E#8] : List Byte) ≠ [] := by decide

theorem witness_SerializeWrapsStuffedRawBytes : (EncodeResult.frame dat).usable = true := by decide

theorem witness_WireMarkersOnlyAtTheEnds :
    State.reset.params.valid = true ∧ (EncodeResult.frame dat).usable = true := by decide

theorem witness_DecodeUndoesRawbytesOfEncode :
    (∃ t, exec (.encode 0x03#8 0x01#8 [] 0) State.reset = .next t ∧ t.out.result = .encoded (.frame ctl))
    ∧ ∃ t, exec (.encode 0x00#8 0x03#8 [0x7E#8] 1) State.reset = .next t ∧ t.out.result = .encoded (.frame dat) :=
  ⟨⟨_, rfl, rfl⟩, _, rfl, rfl⟩

theorem witness_OneCorruptRawByteIsReported :
    exec (.encode 0x00#8 0x03#8 [0x7E#8] [0x7E#8].length) State.reset
      = .next { State.reset with out := ⟨.encoded (.frame dat), false, none⟩ }
    ∧ exec (.rawbytes (.frame dat)) State.reset
      = .next { State.reset with out := ⟨.bytes [0x03#8, 0x00#8, 0x03#8, 0x7E#8, 0x7E#8], false, none⟩ }
    ∧ (2 < 5 ∧ [0x03#8, 0x00#8, 0x03#8, 0x7E#8, 0x7E#8][2]? ≠ some 0x04#8)
    ∧ (4 < 5 ∧ [0x03#8, 0x00#8, 0x03#8, 0x7E#8, 0x7E#8][4]? ≠ some 0x7F#8) := ⟨rfl, rfl, by decide, by decide⟩

theorem witness_SendWritesTheWireFrameOnce : (EncodeResult.frame ctl).usable = true
    ∧ (wireBytes State.reset.params ctl).length = 5
    ∧ { State.reset with wr := [.written 5] }.wr = [.written 5]
    ∧ { State.reset with wr := [.error] }.wr = [.error] ∧ State.reset.wr = [] := by decide

theorem witness_UndefinedOperandsAreRefused : [0x10#8, 0x20#8, 0x30#8, 0x40#8].length < 3 + 2
    ∧ ¬(([] : List Byte) = [] ↔ some (0x00#8 : Byte) = none) ∧ ¬(([0x05#8] : List Byte) = [] ↔ (none : Option Byte) = none)
    ∧ (ctl.payload = [] ↔ ctl.payloadChecksum = none)
    ∧ { State.reset with wr := [.written 6] }.wr = [.written 6] ∧ (wireBytes State.reset.params ctl).length < 6 := by
  decide

theorem witness_NoByteChangesNothing : { State.reset with rx := [none] }.rx = [none] := rfl

theorem witness_ResyncByteRestartsAccumulation : (mk false [] true).fail = true
    ∧ (0x01#8 : Byte) ∈ (mk false [] true).params.resync ∧ (0x03#8 : Byte) ∈ (mk false [] true).params.resync
    ∧ (0x01#8 : Byte) ≠ 0x03#8 ∧ (mk false [] false).fail = false := by decide

theorem witness_StartMarkerBeginsAFrame :
    (mk false [] true).params.valid = true ∧ (mk false [] true).fs = false := by decide

theorem witness_NoiseMarkerHasNoEffect : (mk true [0x05#8] false).params.valid = true
    ∧ (mk true [0x05#8] false).fs = true ∧ (mk true [0x05#8] false).buf.length < 2
    ∧ (mk true [] false).buf.length < 2 := by decide

theorem witness_EndMarkerDecodesTheBuffer : (mk true [0x05#8, 0x06#8] false).params.valid = true
    ∧ (mk true [0x05#8, 0x06#8] false).fs = true ∧ 2 ≤ (mk true [0x05#8, 0x06#8] false).buf.length := by decide

/-- The full buffer, a plain byte, and the two ways a byte is no resync signal. -/
theorem witness_OverflowDiscardsTheByte : (mkCap 3 true [0x0A#8, 0x0B#8, 0x0C#8] false).fs = true
    ∧ 3 ≤ (mkCap 3 true [0x0A#8, 0x0B#8, 0x0C#8] false).buf.length
    ∧ (0x01#8 : Byte) ≠ (mkCap 3 true [0x0A#8, 0x0B#8, 0x0C#8] false).params.marker
    ∧ ¬(false = true ∧ (0x01#8 : Byte) ∈ Params.standard.resync)
    ∧ ¬(true = true ∧ (0x02#8 : Byte) ∈ Params.standard.resync) := by decide

theorem witness_DataByteIsAppended : (mkCap 4 true [0x0A#8, 0x0B#8, 0x0C#8] false).fs = true
    ∧ (mkCap 4 true [0x0A#8, 0x0B#8, 0x0C#8] false).buf.length < 4
    ∧ (0x0D#8 : Byte) ≠ (mkCap 4 true [0x0A#8, 0x0B#8, 0x0C#8] false).params.marker
    ∧ ¬((mkCap 4 true [0x0A#8, 0x0B#8, 0x0C#8] false).fail = true ∧ (0x0D#8 : Byte) ∈ Params.standard.resync) := by
  decide

theorem witness_IdleByteIsIgnored : (mk false [] true).fs = false ∧ (0x02#8 : Byte) ≠ (mk false [] true).params.marker
    ∧ ¬((mk false [] true).fail = true ∧ (0x02#8 : Byte) ∈ (mk false [] true).params.resync)
    ∧ ¬((mk false [] false).fail = true ∧ (0x01#8 : Byte) ∈ (mk false [] false).params.resync) := by decide

theorem witness_AppendChangesOneBufferByte : ∃ t, exec (.rxData 0x7D#8) (mk true [0x03#8] false) = .next t :=
  ⟨_, rfl⟩

theorem witness_RxStepRunsItsDecodedRow : { State.reset with rx := [some 0x7E#8] }.rx = some 0x7E#8 :: []
    ∧ State.reset.rx = [] := ⟨rfl, rfl⟩

theorem witness_ExactlyOneRowRuns : (mk true [0x09#8, 0x09#8] true).params.valid = true := by decide

theorem witness_RxLineIsRxStepWithItsAnswer : (mk false [] true).params.valid = true := by decide

theorem witness_OverflowRepeatsUntilTheMarker :
    (mkCap 4 true [0x0A#8, 0x0B#8, 0x0C#8, 0x0D#8] false).params.valid = true
    ∧ (mkCap 4 true [0x0A#8, 0x0B#8, 0x0C#8, 0x0D#8] false).fs = true
    ∧ (mkCap 4 true [0x0A#8, 0x0B#8, 0x0C#8, 0x0D#8] false).fail = false
    ∧ 4 ≤ (mkCap 4 true [0x0A#8, 0x0B#8, 0x0C#8, 0x0D#8] false).buf.length
    ∧ (0x7E#8 : Byte) ∉ [0x0E#8, 0x0F#8] := by decide

/-- V40 with the smallest capacity that holds it. -/
theorem witness_LoopbackReceivesTheFrame : (mkCap 3 false [] true).params.valid = true
    ∧ (mkCap 3 false [] true).fs = false ∧ ctl.wellFormed = true
    ∧ exec (.serialize (.frame ctl)) (mkCap 3 false [] true) = .next { mkCap 3 false [] true with
        out := ⟨.bytes [0x7E#8, 0x01#8, 0x03#8, 0x02#8, 0x7E#8], false, none⟩ }
    ∧ [0x7E#8, 0x01#8, 0x03#8, 0x02#8, 0x7E#8].length - 2 ≤ (mkCap 3 false [] true).params.cap :=
  ⟨by decide, rfl, by decide, rfl, by decide⟩

/-- P2, the rescued frame. -/
theorem witness_RecoveryReceivesAFrameWithoutItsStart : (mkCap 3 false [] true).params.valid = true
    ∧ (mkCap 3 false [] true).fail = true ∧ ctl.wellFormed = true
    ∧ (0x01#8 : Byte) ∈ (mkCap 3 false [] true).params.resync
    ∧ exec (.serialize (.frame ctl)) (mkCap 3 false [] true) = .next { mkCap 3 false [] true with
        out := ⟨.bytes ((mkCap 3 false [] true).params.marker :: 0x01#8 :: [0x03#8, 0x02#8, 0x7E#8]), false, none⟩ }
    ∧ [0x03#8, 0x02#8, 0x7E#8].length ≤ (mkCap 3 false [] true).params.cap :=
  ⟨by decide, rfl, by decide, by decide, rfl, by decide⟩

/-- A payload of exactly `P.CAP - 4` bytes. -/
theorem witness_ReceivedPayloadFitsTheBuffer :
    (mkCap 5 true [0x00#8, 0x00#8, 0x00#8, 0x05#8, 0x05#8] false).Inv
    ∧ ∃ t, exec .rxEnd (mkCap 5 true [0x00#8, 0x00#8, 0x00#8, 0x05#8, 0x05#8] false) = .next t
      ∧ t.out.result = .rx (.frame ⟨0x00#8, 0x00#8, 0x00#8, [0x05#8], some 0x05#8⟩) :=
  ⟨by decide, _, rfl, rfl⟩

theorem witness_OnlyReceiveChangesTheReassembler : (Instr.decode [0x01#8]).receives = false
    ∧ ∃ t, exec (.decode [0x01#8]) (mk true [0x05#8] false) = .next t := ⟨rfl, _, rfl⟩

theorem witness_TransportIsCalledOnlyByRxStepAndSend :
    (∃ t, exec .rxStep State.reset = .next t) ∧ (∃ t, exec (.send (.frame ctl)) State.reset = .next t)
    ∧ (∃ t, exec .rxReset State.reset = .next t) ∧ (∀ f, Instr.rxReset ≠ .send f)
    ∧ { State.reset with rx := [none] }.rx ≠ [] :=
  ⟨⟨_, rfl⟩, ⟨_, rfl⟩, ⟨_, rfl⟩, nofun, nofun⟩

theorem witness_StateAfterEachError_rx : ∃ t, exec .rxEnd (mk true [0x01#8, 0x03#8, 0x03#8] false) = .next t
    ∧ t.out.result = .rx (.error .headerChecksumMismatch) := ⟨_, rfl, rfl⟩

theorem witness_StateAfterEachError_big :
    ∃ t, exec (.rxOverflow 0x0D#8) (mkCap 3 true [0x0A#8, 0x0B#8, 0x0C#8] false) = .next t
      ∧ t.out.result = .rx (.error .frameTooLarge) := ⟨_, rfl, rfl⟩

theorem witness_StateAfterEachError_pure :
    (∃ t, exec (.decode []) State.reset = .next t ∧ t.out.result = .decoded (.error .frameTooShort))
    ∧ ∃ t, exec (.encode 0x00#8 0x00#8 [0x01#8] 0) State.reset = .next t ∧ t.out.result = .encoded .payloadTooLarge :=
  ⟨⟨_, rfl, rfl⟩, _, rfl, rfl⟩

theorem witness_FlagsAreSetOnlyByTheirEvents_fail : (mk true [0x05#8, 0x06#8] false).fail = false
    ∧ ∃ t, step ((mk true [0x05#8, 0x06#8] false).present (.rx (some 0x7E#8))) = .next t ∧ t.fail = true :=
  ⟨rfl, _, rfl, rfl⟩

theorem witness_FlagsAreSetOnlyByTheirEvents_fs : (mk false [] true).fs = false
    ∧ (∃ t, step ((mk false [] true).present (.rx (some 0x7E#8))) = .next t ∧ t.fs = true)
    ∧ ∃ t, step ((mk false [] true).present (.rx (some 0x01#8))) = .next t ∧ t.fs = true :=
  ⟨rfl, ⟨_, rfl, rfl⟩, _, rfl, rfl⟩

theorem witness_EverySelectedOperationCompletes : State.reset.params.valid = true
    ∧ (Instr.send (.frame ctl)).wellFormed = true
    ∧ (Instr.send (.frame ctl)).selected State.reset.params State.reset.rxContext = true
    ∧ { State.reset with wr := [.written 5] }.wr.head? = some (.written 5)
    ∧ 5 ≤ (wireBytes State.reset.params ctl).length
    ∧ (Instr.rxOverflow 0x05#8).selected State.reset.params ⟨true, false, 16⟩ = true := by decide

theorem witness_PureOperationsCommuteWithReceive : (Instr.stuff [0x7E#8]).receives = false
    ∧ Instr.rxReset.receives = true ∧ (∀ f, Instr.stuff [0x7E#8] ≠ .send f)
    ∧ (∃ u, exec (.stuff [0x7E#8]) (mk true [0x05#8] false) = .next u)
    ∧ ∃ t, exec .rxReset (mk true [0x05#8] false) = .next t := ⟨rfl, rfl, nofun, ⟨_, rfl⟩, _, rfl⟩

theorem witness_InstancesAreIndependent :
    ∃ bank', Bank.step [mk true [0x05#8] false, State.reset.present (.rx (some 0x7E#8))] 1 = .next bank' :=
  ⟨_, rfl⟩

theorem witness_ReservedCodesAreRefused : 0xA ≤ (0xA#4).toNat ∧ 0xA ≤ (0xF#4).toNat := by decide

theorem witness_StatusPortShowsTheResult :
    ∃ t, exec .rxEnd (mk true [0x05#8, 0x06#8] false) = .next t ∧ t.out.result = .rx (.error .frameTooShort) :=
  ⟨_, rfl, rfl⟩

theorem witness_DecodeOfEncodeIsTheInstruction : Params.standard.valid = true
    ∧ (Instr.rxResync01 0x01#8).wellFormed = true
    ∧ (Instr.rxResync01 0x01#8).selected Params.standard ⟨true, true, 16⟩ = true
    ∧ Instr.rxEnd.selected Params.standard ⟨true, false, 2⟩ = true := by decide

theorem witness_EncodeOfDecodeIsTheTransaction : Params.standard.valid = true
    ∧ dec idle (.op 0x9#4 .none) = .ok .rxReset ∧ (0x9#4).toNat < 0xA
    ∧ dec idle (.rx (some 0x7E#8)) = .ok .rxStart ∧ dec idle (.stuffUnit 0x00#8) = .ok (.stuffPlain 0x00#8)
    ∧ dec idle (.destuffUnit [0x7D#8, 0x00#8, 0x05#8]) = .ok (.destuffEscPair 0x00#8) :=
  ⟨by decide, rfl, by decide, rfl, rfl, rfl⟩

theorem witness_OperationCodesSelectTheirOperations : (0x9#4).toNat < 0xA
    ∧ ∀ j, dec idle (.op 0x9#4 (.bytes [])) ≠ .ok j := ⟨by decide, nofun⟩

theorem witness_StepRunsTheDecodedInstruction : State.reset.params.valid = true ∧ State.reset.requests = []
    ∧ (State.reset.present (.op 0x9#4 .none)).requests = [.op 0x9#4 .none]
    ∧ decode State.reset.params State.reset.rxContext (.op 0x9#4 .none) = .ok .rxReset
    ∧ decode State.reset.params State.reset.rxContext (.destuffUnit []) = .error .emptyScan
    ∧ (mkCap 2 false [] false).params.valid = false := ⟨by decide, rfl, rfl, rfl, rfl, by decide⟩

theorem witness_StepKeepsTheInvariant :
    ((mkCap 3 true [0x0A#8, 0x0B#8] false).present (.rx (some 0x01#8))).Inv
    ∧ ∃ t, step ((mkCap 3 true [0x0A#8, 0x0B#8] false).present (.rx (some 0x01#8))) = .next t :=
  ⟨by decide, _, rfl⟩

/-- The step that fills the buffer: the length becomes 3, the largest two bits hold. -/
theorem witness_LengthCounterIsWideEnough :
    ((mkCap 3 true [0x0A#8, 0x0B#8] false).present (.rx (some 0x01#8))).Inv
    ∧ ∃ t, step ((mkCap 3 true [0x0A#8, 0x0B#8] false).present (.rx (some 0x01#8))) = .next t
      ∧ t.buf.length = 3 := ⟨by decide, _, rfl, rfl⟩

end Sys2Proof.Tests
end

/-! PROOFS of spec/10_state.md: the invariant, and which operations touch the reassembler and the transport. -/

namespace Sys2Proof.Machine

/-! ### What can happen to the reassembler -/

/-- What can happen to `fs`, `fail` and the buffer in one step: from the parameters and these three before it, the state
after it (R24, R28). The causes are R152, R156, R159, R161 (`kept`), R168 (`reset`), R155 (`started`), R153
(`recovered`), R160 (`stored`) and R157 (`ended`). -/
inductive ReassemblerMove (p : Params) (fs fail : Bool) (buf : Memory) (t : State) : Prop
  | kept (hfs : t.fs = fs) (hfail : t.fail = fail) (hbuf : t.buf = buf)
  | reset (hfs : t.fs = false) (hfail : t.fail = false) (hbuf : t.buf = [])
  | started (idle : fs = false) (hfs : t.fs = true) (hfail : t.fail = false) (hbuf : t.buf = [])
      (hout : t.out.result = .rx .incomplete)
  | recovered (b : Byte) (failed : fail = true) (resync : b ∈ p.resync) (hfs : t.fs = true) (hfail : t.fail = false)
      (hbuf : t.buf = [b]) (hout : t.out.result = .rx .incomplete)
  | stored (b : Byte) (plain : b ≠ p.marker) (accumulating : fs = true) (room : buf.length < p.cap) (hfs : t.fs = fs)
      (hfail : t.fail = fail) (hbuf : t.buf = buf ++ [b])
  | ended (accumulating : fs = true) (long : 2 ≤ buf.length) (hfs : t.fs = false)
      (hfail : t.fail = (decodeWire p buf).isError) (hbuf : t.buf = [])
      (hout : t.out.result = .rx (decodeWire p buf).toRx)

/-- The selected row's transition is one of the moves. -/
theorem takeRow_move (s : State) (a : Option Byte) :
    ReassemblerMove s.params s.fs s.fail s.buf (takeRow (rxRow s.params s.rxContext a) s) := by
  cases a with
  | none => exact .kept rfl rfl rfl
  | some b =>
    rcases rxRow_cases s.params s.rxContext b with ⟨hfail, hb, e⟩ | ⟨-, ⟨-, hfs, e⟩ | ⟨-, -, -, e⟩ | ⟨-, hfs, hl, e⟩ |
      ⟨-, -, -, e⟩ | ⟨hm, hfs, hl, e⟩ | ⟨-, -, e⟩⟩ <;> rw [e]
    · exact .recovered b hfail hb rfl rfl rfl rfl
    · exact .started hfs rfl rfl rfl rfl
    · exact .kept rfl rfl rfl
    · exact .ended hfs hl rfl rfl rfl rfl
    · exact .kept rfl rfl rfl
    · exact .stored b hm hfs hl rfl rfl rfl
    · exact .kept rfl rfl rfl

/-- An instruction outside the receive side leaves the reassembler alone; a SEND's transport call touches no part of
it. -/
theorem exec_sameReassembler {i : Instr} {s t : State} (hi : i.receives = false) (h : exec i s = .next t) :
    SameReassembler s t := by
  rcases exec_next h with ⟨f, -, hf⟩ | ⟨-, -, r, rfl, -⟩ | ⟨-, -, rfl⟩ | ⟨rfl, -⟩ | ⟨rfl, -⟩ | ⟨hr, -⟩
  · obtain ⟨g, a, -, -, -, ⟨-, rfl⟩ | ⟨rest, -, rfl⟩⟩ := execSend_next hf <;> exact ⟨rfl, rfl, fun _ => rfl⟩
  · exact ⟨rfl, rfl, fun _ => rfl⟩
  · exact ⟨rfl, rfl, fun _ => rfl⟩
  · cases hi
  · cases hi
  · rw [hi] at hr; cases hr

theorem exec_move {i : Instr} {s t : State} (h : exec i s = .next t) :
    ReassemblerMove s.params s.fs s.fail s.buf t := by
  cases hi : i.receives with
  | false =>
    obtain ⟨hfs, hfail, hbuf⟩ := exec_sameReassembler hi h
    exact .kept hfs hfail (Memory.ext hbuf)
  | true =>
    rcases exec_next h with ⟨f, rfl, -⟩ | ⟨hn, -⟩ | ⟨hn, -⟩ | ⟨-, rfl⟩ | ⟨-, rfl⟩ | ⟨-, -, -, a, rfl⟩
    · cases hi
    · rw [hi] at hn; cases hn
    · rw [hi] at hn; cases hn
    · exact .reset rfl rfl rfl
    · rw [readByte_state]
      exact takeRow_move { s with rx := s.rx.drop 1, free := if s.rx = [] then s.free + 1 else s.free } (readByte s).1
    · exact takeRow_move s a

/-! ### What an instruction leaves of the environment's part of the state -/

/-- The parameters, the host's requests, the transport's lists and stream and the free counter are as before, and no
`writeBytes` call stands on the result port. -/
structure SameEnvironment (s t : State) : Prop where
  params : t.params = s.params
  requests : t.requests = s.requests
  rx : t.rx = s.rx
  wr : t.wr = s.wr
  tx : t.tx = s.tx
  free : t.free = s.free
  write : t.out.write = none

@[simp] theorem takeRow_write (row : RxRow) (s : State) : (takeRow row s).out.write = none := by
  cases row <;> rfl

theorem takeRow_sameEnvironment (row : RxRow) (s : State) : SameEnvironment s (takeRow row s) := by
  obtain ⟨hp, hq, hrx, hwr, htx, hfree⟩ := takeRow_environment row s
  exact ⟨hp, hq, hrx, hwr, htx, hfree, takeRow_write row s⟩

/-- Every instruction but SEND and RX_STEP leaves the environment's part of the state alone. -/
theorem exec_sameEnvironment {i : Instr} {s t : State} (hsend : ∀ f, i ≠ .send f) (hstep : i ≠ .rxStep)
    (h : exec i s = .next t) : SameEnvironment s t := by
  rcases exec_next h with ⟨f, hf, -⟩ | ⟨-, -, r, rfl, -⟩ | ⟨-, -, rfl⟩ | ⟨-, rfl⟩ | ⟨hf, -⟩ | ⟨-, -, -, a, rfl⟩
  · exact absurd hf (hsend f)
  · exact ⟨rfl, rfl, rfl, rfl, rfl, rfl, rfl⟩
  · exact ⟨rfl, rfl, rfl, rfl, rfl, rfl, rfl⟩
  · exact ⟨rfl, rfl, rfl, rfl, rfl, rfl, rfl⟩
  · exact absurd hf hstep
  · exact takeRow_sameEnvironment _ s

/-- RX_STEP takes one `readByte` answer, and beside it leaves the environment's part of the state alone. -/
theorem exec_rxStep_sameEnvironment {s t : State} (h : exec .rxStep s = .next t) :
    SameEnvironment { s with rx := s.rx.drop 1, free := if s.rx = [] then s.free + 1 else s.free } t := by
  rw [show exec .rxStep s = execRxStep s from rfl, execRxStep_eq, readByte_state] at h
  cases h
  exact takeRow_sameEnvironment _ _

/-- A SEND makes one `writeBytes` call of a whole buffer, to which the transmit stream can only grow. -/
theorem exec_send_environment {f : EncodeResult} {s t : State} (h : exec (.send f) s = .next t) :
    t.params = s.params ∧ t.requests = s.requests ∧ t.rx = s.rx ∧
      ∃ w, t.out.write = some (w, w.length) ∧ s.tx <+: t.tx := by
  obtain ⟨g, a, -, -, -, ⟨-, rfl⟩ | ⟨rest, -, rfl⟩⟩ := execSend_next h <;>
    exact ⟨rfl, rfl, rfl, _, rfl, _, rfl⟩

theorem exec_params {i : Instr} {s t : State} (h : exec i s = .next t) : t.params = s.params := by
  by_cases hsend : ∃ f, i = .send f
  · obtain ⟨f, rfl⟩ := hsend
    exact (exec_send_environment h).1
  · by_cases hstep : i = .rxStep
    · subst hstep
      exact (exec_rxStep_sameEnvironment h).params
    · exact (exec_sameEnvironment (not_exists.mp hsend) hstep h).params

/-! ### A step, and the invariant -/

theorem step_params {s t : State} (h : step s = .next t) : t.params = s.params := by
  obtain ⟨-, ⟨-, rfl⟩ | ⟨w, rest, i, -, -, hx⟩⟩ := step_next h
  · rfl
  · exact exec_params (s := { s with requests := rest }) hx

theorem step_move {s t : State} (h : step s = .next t) : ReassemblerMove s.params s.fs s.fail s.buf t := by
  obtain ⟨-, ⟨-, rfl⟩ | ⟨w, rest, i, -, -, hx⟩⟩ := step_next h
  · exact .kept rfl rfl rfl
  · exact exec_move (s := { s with requests := rest }) hx

/-- Every move keeps the invariant: a recovery seeds the buffer with a resync byte, which is no marker, and a byte is
stored only where there is room. -/
theorem ReassemblerMove.inv {s t : State} (h : ReassemblerMove s.params s.fs s.fail s.buf t)
    (hp : t.params = s.params) (hs : s.Inv) : t.Inv := by
  obtain ⟨hvalid, hcap, hidle, hacc, hmarker⟩ := hs
  obtain ⟨-, -, hresync, -, h3⟩ := (Params.valid_iff s.params).mp hvalid
  unfold State.Inv
  rw [hp]
  cases h with
  | kept hfs hfail hbuf => rw [hfs, hfail, hbuf]; exact ⟨hvalid, hcap, hidle, hacc, hmarker⟩
  | reset hfs hfail hbuf => simp [hvalid, hfs, hbuf]
  | started _ hfs hfail hbuf _ => simp [hvalid, hfs, hfail, hbuf]
  | recovered b _ hb hfs hfail hbuf _ =>
    have hne : s.params.marker ≠ b := fun e => hresync (e ▸ hb)
    rw [hbuf]
    exact ⟨hvalid, Memory.wf_seed h3 b, by simp [hfs], fun _ => hfail, by simpa using hne⟩
  | stored b hb hs room hfs hfail hbuf =>
    rw [hfs, hfail, hbuf]
    exact ⟨hvalid, Memory.wf_append room b, by simp [hs], hacc, by simp [hmarker, hb.symm]⟩
  | ended _ _ hfs _ hbuf _ => simp [hvalid, hfs, hbuf]

/-- With the invariant the length of the buffer fits the counter of R21. -/
theorem length_lt_of_inv {s : State} (h : s.Inv) : s.buf.length < 2 ^ lenWidth s.params := by
  obtain ⟨-, hcap, -⟩ := h
  calc s.buf.length < s.params.cap + 1 := Nat.lt_succ_of_le ((Memory.wf_iff _ _).mp hcap)
    _ ≤ 2 ^ lenWidth s.params := Nat.le_pow_clog Nat.one_lt_two _

/-! ### Operations without state -/

/-- A meaning that reads the parameters alone and writes the result port alone: where it answers in one state it gives
the same port in every state with the same parameters. -/
def PortOnly (f : State → Host.Outcome State Fault Refusal) : Prop :=
  ∀ {s t u : State}, s.params = t.params → f s = .next u → f t = .next { t with out := u.out }

theorem stuffUnit_portOnly (row : Params → StuffRow) (b : Params → Byte) :
    PortOnly fun s => stuffUnit (row s.params) (b s.params) s := by
  intro s t u hp h
  obtain ⟨hrow, rfl⟩ := stuffUnit_next h
  rw [hp] at hrow ⊢
  simp only [stuffUnit, hrow, if_true]
  rfl

theorem destuffUnit_portOnly (row : DestuffRow) (scan : Params → List Byte) :
    PortOnly fun s => destuffUnit row (scan s.params) s := by
  intro s t u hp h
  obtain ⟨hrow, rfl⟩ := destuffUnit_next h
  rw [hp] at hrow
  simp only [destuffUnit, hrow, if_true]
  rfl

/-- An operation on a frame operand whose result depends on the parameters and the frame. -/
theorem withFrame_portOnly (f : EncodeResult) (r : Params → Frame → Result) :
    PortOnly fun s => withFrame f fun g => .next (s.answer (r s.params g)) := by
  intro s t u hp h
  obtain ⟨g, rfl, hg, e⟩ := withFrame_next h
  cases e
  simp only [withFrame, hg, if_true, hp]
  rfl

theorem execChecksum_portOnly (buffer : List Byte) (start length : Nat) :
    PortOnly (execChecksum buffer start length) := by
  intro s t u _ h
  obtain ⟨hrange, rfl⟩ := execChecksum_next h
  simp only [execChecksum, hrange, if_true]
  rfl

theorem execEncode_portOnly (type address : Byte) (payload : List Byte) (maxPayload : Nat) :
    PortOnly (execEncode type address payload maxPayload) := by
  intro s t u _ h
  rcases execEncode_next h with ⟨hfits, rfl⟩ | ⟨hlong, rfl⟩
  · simp only [execEncode, Nat.not_lt.mpr hfits, if_false]
    rfl
  · simp only [execEncode, hlong, if_true]
    rfl

theorem exec_portOnly {i : Instr} (hi : i.receives = false) (hsend : ∀ f, i ≠ .send f) : PortOnly (exec i) := by
  cases i with
  | stuff raw => intro s t u hp h; cases h; simp only [exec, execStuff, hp]; rfl
  | destuff stuffed => intro s t u hp h; cases h; simp only [exec, execDestuff, hp]; rfl
  | checksum buffer start length => exact execChecksum_portOnly buffer start length
  | encode type address payload maxPayload => exact execEncode_portOnly type address payload maxPayload
  | decode destuffed => intro s t u _ h; cases h; rfl
  | rawbytes f => exact withFrame_portOnly f fun _ g => .bytes (rawBytes g)
  | serialize f => exact withFrame_portOnly f fun p g => .bytes (wireBytes p g)
  | send f => exact absurd rfl (hsend f)
  | reservedOp code => intro s t u _ h; cases h
  | destuffEscPair follower => exact destuffUnit_portOnly _ fun p => [p.esc, follower]
  | destuffEscTail => exact destuffUnit_portOnly _ fun p => [p.esc]
  | destuffLiteral b => exact destuffUnit_portOnly _ fun _ => [b]
  | stuffMarker => exact stuffUnit_portOnly (fun _ => .marker) fun p => p.marker
  | stuffEsc => exact stuffUnit_portOnly (fun _ => .esc) fun p => p.esc
  | stuffPlain b => exact stuffUnit_portOnly (fun _ => .plain b) fun _ => b
  | _ => cases hi

/-! ### A receive operation does not read the result port -/

theorem takeRow_setOut (row : RxRow) (s : State) (o : Output) :
    takeRow row { s with out := o } = takeRow row s := by
  cases row <;> rfl

theorem rxUnit_setOut (row : RxRow) (a : Option Byte) (s : State) (o : Output) :
    rxUnit row a { s with out := o } = rxUnit row a s := by
  simp only [rxUnit, takeRow_setOut]
  rfl

theorem readByte_setOut (s : State) (o : Output) :
    readByte { s with out := o } = ((readByte s).1, { (readByte s).2 with out := o }) := by
  unfold readByte
  cases s.rx <;> rfl

theorem execRxStep_setOut (s : State) (o : Output) : execRxStep { s with out := o } = execRxStep s := by
  rw [execRxStep_eq, readByte_setOut, takeRow_setOut, execRxStep_eq]
  rfl

theorem exec_receive_setOut {j : Instr} (hj : j.receives = true) (s : State) (o : Output) :
    exec j { s with out := o } = exec j s := by
  cases j with
  | rxStep => exact execRxStep_setOut s o
  | rxReset => rfl
  | rxResync01 _ | rxResync03 | rxStart | rxNoise | rxEnd | rxOverflow _ | rxData _ | rxIgnore _ =>
    exact rxUnit_setOut _ _ s o
  | rxNobyte => exact rxUnit_setOut .noByte none s o
  | _ => cases hj

/-! ### The statements -/

/-- Settles O59: a step makes one of the reassembler's moves, and every move keeps the invariant. -/
theorem stepKeepsTheInvariant : Obligations.StepKeepsTheInvariant :=
  fun _ _ hs h => (step_move h).inv (step_params h) hs

/-- Settles O43: no instruction outside the receive side touches the reassembler. -/
theorem onlyReceiveChangesTheReassembler : Obligations.OnlyReceiveChangesTheReassembler :=
  fun _ _ _ => exec_sameReassembler

/-- Settles O44: SEND, RX_STEP and everything else, each by its lemma about the environment. -/
theorem transportIsCalledOnlyByRxStepAndSend : Obligations.TransportIsCalledOnlyByRxStepAndSend := by
  intro i s t h
  by_cases hsend : ∃ f, i = .send f
  · obtain ⟨f, rfl⟩ := hsend
    obtain ⟨hp, hq, hrx, hw⟩ := exec_send_environment h
    exact ⟨hp, hq, nofun, fun _ => hrx, fun hn => absurd rfl (hn f), fun _ => hw⟩
  · by_cases hstep : i = .rxStep
    · subst hstep
      obtain ⟨hp, hq, hrx, hwr, htx, hfree, hw⟩ := exec_rxStep_sameEnvironment h
      refine ⟨hp, hq, fun _ => hrx, fun hn => absurd rfl hn, fun _ => ⟨hwr, htx, hw, ?_⟩, fun hs => absurd hs hsend⟩
      rintro (hn | hlisted)
      · exact absurd rfl hn
      · exact hfree.trans (if_neg hlisted)
    · obtain ⟨hp, hq, hrx, hwr, htx, hfree, hw⟩ := exec_sameEnvironment (not_exists.mp hsend) hstep h
      exact ⟨hp, hq, fun hs => absurd hs hstep, fun _ => hrx, fun _ => ⟨hwr, htx, hw, fun _ => hfree⟩,
        fun hs => absurd hs hsend⟩

/-- Settles O46: of the reassembler's moves only the end of a frame can set `fail`, and only a start or a recovery can
set `fs`. -/
theorem flagsAreSetOnlyByTheirEvents : Obligations.FlagsAreSetOnlyByTheirEvents := by
  intro s t h
  cases step_move h with
  | kept hfs hfail _ => simp +contextual [hfs, hfail]
  | reset hfs hfail _ => simp [hfs, hfail]
  | started _ _ hfail hbuf hout => exact ⟨by simp [hfail], fun _ _ => ⟨hfail, hout, .inl hbuf⟩⟩
  | recovered b hs hb _ hfail hbuf hout => exact ⟨by simp [hfail], fun _ _ => ⟨hfail, hout, .inr ⟨b, hb, hs, hbuf⟩⟩⟩
  | stored _ _ _ _ hfs hfail _ => simp +contextual [hfs, hfail]
  | ended hs hl hfs hfail hbuf hout =>
    refine ⟨fun _ hset => ⟨hs, hl, hfs, hbuf, ?_⟩, by simp [hfs]⟩
    cases hd : decodeWire s.params s.buf with
    | frame f => simp [hfail, hd, DecodeResult.isError] at hset
    | error k => exact ⟨k, rfl, by rw [hout, hd]; rfl⟩

/-- Settles O48: the first operation writes only the result port, which the receive operation does not read and
replaces; the receive operation keeps the parameters, which are all the first one reads. -/
theorem pureOperationsCommuteWithReceive : Obligations.PureOperationsCommuteWithReceive := by
  intro i j s u hi hsend hj h
  have hport : PortOnly (exec i) := exec_portOnly hi hsend
  have hu : u = { s with out := u.out } := Host.Outcome.next.inj (h.symm.trans (hport rfl h))
  refine ⟨?_, fun t ht => ⟨_, hport (exec_params ht).symm h, rfl, rfl, rfl, fun _ => rfl⟩⟩
  rw [hu]
  exact exec_receive_setOut hj s u.out

/-- Settles O60: the state after the step has the invariant, which bounds the length by `P.CAP`. -/
theorem lengthCounterIsWideEnough : Obligations.LengthCounterIsWideEnough :=
  fun s t hs h => length_lt_of_inv (stepKeepsTheInvariant s t hs h)

/-- Settles O58: the reset state is Idle and empty, with the valid parameters of log entry 1. -/
theorem resetSatisfiesTheInvariant : Obligations.ResetSatisfiesTheInvariant :=
  ⟨by decide, Memory.wf_empty _, fun _ => rfl, nofun, List.not_mem_nil⟩

end Sys2Proof.Machine

/-! PROOFS of spec/20_memory.md: the append to the buffer, and what a step does with the host's next transaction. -/

namespace Sys2Proof.Machine

/-! ### The append -/

/-- RX.DATA, where it answers, has stored its byte (R160). -/
theorem exec_rxData_next {s t : State} {b : Byte} (h : exec (.rxData b) s = .next t) :
    t = (s.store b).answer (.rx .incomplete) := by
  obtain ⟨-, ht⟩ := rxUnit_next (row := .data b) h
  exact ht

/-! ### A step that runs no instruction -/

/-- With no transaction waiting a step changes nothing (R212, log entry 2). -/
theorem step_idle {s : State} (hp : s.params.valid = true) (hr : s.requests = []) : step s = .next s := by
  unfold step
  rw [if_pos hp, fetch_nil hr]

theorem step_undecodable {s : State} {w : Transaction} {rest : List Transaction} {e : DecodeError}
    (hp : s.params.valid = true) (hr : s.requests = w :: rest) (hd : decode s.params s.rxContext w = .error e) :
    step s = .refused (.undecodable e) := by
  unfold step
  rw [if_pos hp, fetch_cons hr]
  have hc : State.rxContext { s with requests := rest } = s.rxContext := rfl
  simp only [hc, hd]

theorem step_invalid {s : State} (hp : s.params.valid = false) : step s = .refused .invalidParameters := by
  simp [step, hp]

/-! ### The statements -/

/-- Settles O34: RX.DATA stores its byte and answers, and the buffer's two laws say what an append leaves. -/
theorem appendChangesOneBufferByte : Obligations.AppendChangesOneBufferByte := by
  intro s t b h
  obtain rfl := exec_rxData_next h
  exact ⟨Memory.read_append s.buf b, fun _ ha => Memory.read_append_of_ne s.buf b ha, rfl, rfl, rfl, rfl, rfl, rfl⟩

/-- Settles O56: the four cases of a step, each by its lemma. -/
theorem stepRunsTheDecodedInstruction : Obligations.StepRunsTheDecodedInstruction :=
  fun _ => ⟨step_idle, fun _ _ _ => step_decoded, fun _ _ _ => step_undecodable, step_invalid⟩

end Sys2Proof.Machine

/-! PROOFS of spec/30_encoding.md: decoding and encoding agree, the byte-class rows run where they are decoded, and the
frames that come out are well-formed. -/

namespace Sys2Proof

/-! ### The operation map -/

/-- The operation map of R70 as a relation: a defined code with operands of its signature, and the operation it
selects. -/
inductive OpRow : BitVec 4 → Operands → Instr → Prop
  | stuff (raw : List Byte) : OpRow 0x0#4 (.bytes raw) (.stuff raw)
  | destuff (stuffed : List Byte) : OpRow 0x1#4 (.bytes stuffed) (.destuff stuffed)
  | checksum (buffer : List Byte) (start length : Nat) :
      OpRow 0x2#4 (.range buffer start length) (.checksum buffer start length)
  | encode (type address : Byte) (payload : List Byte) (maxPayload : Nat) :
      OpRow 0x3#4 (.construct type address payload maxPayload) (.encode type address payload maxPayload)
  | decode (destuffed : List Byte) : OpRow 0x4#4 (.bytes destuffed) (.decode destuffed)
  | rawbytes (f : EncodeResult) : OpRow 0x5#4 (.frame f) (.rawbytes f)
  | serialize (f : EncodeResult) : OpRow 0x6#4 (.frame f) (.serialize f)
  | send (f : EncodeResult) : OpRow 0x7#4 (.frame f) (.send f)
  | rxStep : OpRow 0x8#4 .none .rxStep
  | rxReset : OpRow 0x9#4 .none .rxReset

variable {p : Params} {c : RxContext} {select : BitVec 4} {operands : Operands} {i : Instr}

theorem OpRow.decodeOp_eq (h : OpRow select operands i) : decodeOp select operands = .ok i := by
  cases h <;> rfl

theorem OpRow.encode_eq (h : OpRow select operands i) (p : Params) : Sys2Proof.encode p i = .op select operands := by
  cases h <;> rfl

theorem OpRow.selected (h : OpRow select operands i) (p : Params) (c : RxContext) : i.selected p c = true := by
  cases h <;> rfl

/-- Everything `decodeOp` can answer: an operation, a refusal of the operands' shape, or the reserved row (R70, R76). -/
theorem decodeOp_cases (select : BitVec 4) (operands : Operands) :
    (∃ i, OpRow select operands i ∧ decodeOp select operands = .ok i) ∨
    (select.toNat < 0xA ∧ decodeOp select operands = .error (.operandShape select)) ∨
    (0xA ≤ select.toNat ∧ decodeOp select operands = .ok (.reservedOp select)) := by
  have code : ∀ {k : BitVec 4}, select.toNat = k.toNat → select = k := BitVec.eq_of_toNat_eq
  unfold decodeOp
  split
  case h_1 h => cases code (k := 0x0#4) h; exact .inl ⟨_, .stuff _, rfl⟩
  case h_2 h => cases code (k := 0x1#4) h; exact .inl ⟨_, .destuff _, rfl⟩
  case h_3 h => cases code (k := 0x2#4) h; exact .inl ⟨_, .checksum _ _ _, rfl⟩
  case h_4 h => cases code (k := 0x3#4) h; exact .inl ⟨_, .encode _ _ _ _, rfl⟩
  case h_5 h => cases code (k := 0x4#4) h; exact .inl ⟨_, .decode _, rfl⟩
  case h_6 h => cases code (k := 0x5#4) h; exact .inl ⟨_, .rawbytes _, rfl⟩
  case h_7 h => cases code (k := 0x6#4) h; exact .inl ⟨_, .serialize _, rfl⟩
  case h_8 h => cases code (k := 0x7#4) h; exact .inl ⟨_, .send _, rfl⟩
  case h_9 h => cases code (k := 0x8#4) h; exact .inl ⟨_, .rxStep, rfl⟩
  case h_10 h => cases code (k := 0x9#4) h; exact .inl ⟨_, .rxReset, rfl⟩
  case h_11 =>
    by_cases hlt : select.toNat < 0xA
    · exact .inr (.inl ⟨hlt, if_pos hlt⟩)
    · exact .inr (.inr ⟨Nat.le_of_not_lt hlt, if_neg hlt⟩)

theorem decodeOp_ok_iff (hlt : select.toNat < 0xA) : decodeOp select operands = .ok i ↔ OpRow select operands i := by
  refine ⟨fun h => ?_, OpRow.decodeOp_eq⟩
  rcases decodeOp_cases select operands with ⟨j, hrow, e⟩ | ⟨-, e⟩ | ⟨hge, -⟩
  · cases e.symm.trans h
    exact hrow
  · cases e.symm.trans h
  · omega

/-- A reserved code decodes to the reserved row, whatever stands on the operand ports (R76). -/
theorem decodeOp_reserved (hge : 0xA ≤ select.toNat) : decodeOp select operands = .ok (.reservedOp select) := by
  rcases decodeOp_cases select operands with ⟨j, hrow, -⟩ | ⟨hlt, -⟩ | ⟨-, e⟩
  · cases hrow <;> exact absurd hge (by decide)
  · omega
  · exact e

/-! ### The conditions of the byte-class rows -/

/-- The table's "and not class RESYNC". -/
theorem notResync_iff {b : Byte} :
    (c.fail && p.resync.contains b) = false ↔ ¬(c.fail = true ∧ b ∈ p.resync) := by
  rw [← Bool.not_eq_true, Bool.and_eq_true, List.contains_iff_mem]

@[simp] theorem selected_rxResync01 {b : Byte} :
    (Instr.rxResync01 b).selected p c = true ↔ c.fail = true ∧ b ∈ p.resync := by
  simp [Instr.selected]

@[simp] theorem selected_rxResync03 :
    Instr.rxResync03.selected p c = true ↔ c.fail = true ∧ 0x03#8 ∈ p.resync := by
  simp [Instr.selected]

@[simp] theorem selected_rxStart : Instr.rxStart.selected p c = true ↔ c.fs = false := by
  simp [Instr.selected]

@[simp] theorem selected_rxNoise : Instr.rxNoise.selected p c = true ↔ c.fs = true ∧ c.len < 2 := by
  simp [Instr.selected]

@[simp] theorem selected_rxEnd : Instr.rxEnd.selected p c = true ↔ c.fs = true ∧ 2 ≤ c.len := by
  simp [Instr.selected]

@[simp] theorem selected_rxOverflow {b : Byte} : (Instr.rxOverflow b).selected p c = true ↔
    b ≠ p.marker ∧ c.fs = true ∧ p.cap ≤ c.len ∧ ¬(c.fail = true ∧ b ∈ p.resync) := by
  simp only [Instr.selected, Bool.and_eq_true, Bool.not_eq_true', bne_iff_ne, decide_eq_true_eq, notResync_iff,
    and_assoc]

@[simp] theorem selected_rxData {b : Byte} : (Instr.rxData b).selected p c = true ↔
    b ≠ p.marker ∧ c.fs = true ∧ c.len < p.cap ∧ ¬(c.fail = true ∧ b ∈ p.resync) := by
  simp only [Instr.selected, Bool.and_eq_true, Bool.not_eq_true', bne_iff_ne, decide_eq_true_eq, notResync_iff,
    and_assoc]

@[simp] theorem selected_rxIgnore {b : Byte} : (Instr.rxIgnore b).selected p c = true ↔
    b ≠ p.marker ∧ c.fs = false ∧ ¬(c.fail = true ∧ b ∈ p.resync) := by
  simp only [Instr.selected, Bool.and_eq_true, Bool.not_eq_true', bne_iff_ne, notResync_iff, and_assoc]

@[simp] theorem selected_destuffLiteral {b : Byte} :
    (Instr.destuffLiteral b).selected p c = true ↔ b ≠ p.esc := by
  simp [Instr.selected]

@[simp] theorem selected_stuffPlain {b : Byte} :
    (Instr.stuffPlain b).selected p c = true ↔ b ≠ p.marker ∧ b ≠ p.esc := by
  simp [Instr.selected]

/-! ### A received byte -/

theorem decode_rx {a : Option Byte} {row : RxRow} (h : rxRow p c a = row) : decode p c (.rx a) = .ok row.instr := by
  subst h; rfl

theorem decode_rx_resync {b : Byte} (hf : c.fail = true) (hb : b ∈ p.resync) :
    decode p c (.rx (some b)) = .ok (if b = 0x03#8 then .rxResync03 else .rxResync01 b) :=
  decode_rx (rxRow_resync hf hb)

/-- The row of an answer is selected, and stands for that answer alone (R71). -/
theorem rxRow_instr (p : Params) (c : RxContext) (a : Option Byte) :
    (rxRow p c a).instr.selected p c = true ∧ encode p (rxRow p c a).instr = .rx a := by
  cases a with
  | none => exact ⟨rfl, rfl⟩
  | some b =>
    rcases rxRow_cases p c b with ⟨hf, hb, e⟩ | ⟨hn, ⟨rfl, hs, e⟩ | ⟨rfl, hs, hl, e⟩ | ⟨rfl, hs, hl, e⟩ |
      ⟨hm, hs, hl, e⟩ | ⟨hm, hs, hl, e⟩ | ⟨hm, hs, e⟩⟩ <;> rw [e]
    · by_cases h3 : b = 0x03#8
      · subst h3
        exact ⟨selected_rxResync03.mpr ⟨hf, hb⟩, rfl⟩
      · rw [RxRow.instr, if_neg h3]
        exact ⟨selected_rxResync01.mpr ⟨hf, hb⟩, rfl⟩
    · exact ⟨selected_rxStart.mpr hs, rfl⟩
    · exact ⟨selected_rxNoise.mpr ⟨hs, hl⟩, rfl⟩
    · exact ⟨selected_rxEnd.mpr ⟨hs, hl⟩, rfl⟩
    · exact ⟨selected_rxOverflow.mpr ⟨hm, hs, hl, hn⟩, rfl⟩
    · exact ⟨selected_rxData.mpr ⟨hm, hs, hl, hn⟩, rfl⟩
    · exact ⟨selected_rxIgnore.mpr ⟨hm, hs, hn⟩, rfl⟩

/-- Class RESYNC needs the failure flag (R71, R153). -/
theorem rxRow_ne_resync (hf : c.fail = false) (a : Option Byte) (b : Byte) : rxRow p c a ≠ .resync b := by
  intro h
  have hsel := (rxRow_instr p c a).1
  rw [h, RxRow.instr] at hsel
  split at hsel <;> simp [hf] at hsel

/-! ### A byte under STUFF -/

@[simp] theorem stuffRow_marker (p : Params) : stuffRow p p.marker = .marker := if_pos rfl

@[simp] theorem stuffRow_esc (hne : p.marker ≠ p.esc) : stuffRow p p.esc = .esc := by
  simp [stuffRow, hne.symm]

theorem stuffRow_plain {b : Byte} (hm : b ≠ p.marker) (he : b ≠ p.esc) : stuffRow p b = .plain b := by
  simp [stuffRow, hm, he]

theorem decode_stuffUnit {b : Byte} {row : StuffRow} (h : stuffRow p b = row) :
    decode p c (.stuffUnit b) = .ok row.instr := by
  subst h; rfl

/-- Everything `stuffRow` can answer (R90). -/
theorem stuffRow_cases (p : Params) (b : Byte) :
    (b = p.marker ∧ stuffRow p b = .marker) ∨ (b = p.esc ∧ stuffRow p b = .esc) ∨
      (b ≠ p.marker ∧ b ≠ p.esc ∧ stuffRow p b = .plain b) := by
  by_cases hm : b = p.marker
  · exact .inl ⟨hm, if_pos hm⟩
  · by_cases he : b = p.esc
    · exact .inr (.inl ⟨he, by rw [stuffRow, if_neg hm, if_pos he]⟩)
    · exact .inr (.inr ⟨hm, he, stuffRow_plain hm he⟩)

theorem stuffRow_instr (p : Params) (c : RxContext) (b : Byte) :
    (stuffRow p b).instr.selected p c = true ∧ encode p (stuffRow p b).instr = .stuffUnit b := by
  rcases stuffRow_cases p b with ⟨rfl, e⟩ | ⟨rfl, e⟩ | ⟨hm, he, e⟩ <;> rw [e]
  · exact ⟨rfl, rfl⟩
  · exact ⟨rfl, rfl⟩
  · exact ⟨selected_stuffPlain.mpr ⟨hm, he⟩, rfl⟩

/-! ### A byte under DESTUFF -/

theorem destuffRow_pair (p : Params) (follower : Byte) (rest : List Byte) :
    destuffRow p (p.esc :: follower :: rest) = some (.escPair follower) := if_pos rfl

theorem destuffRow_tail (p : Params) : destuffRow p [p.esc] = some .escTail := if_pos rfl

theorem destuffRow_literal {b : Byte} (he : b ≠ p.esc) (rest : List Byte) :
    destuffRow p (b :: rest) = some (.literal b) := by
  cases rest <;> exact if_neg he

/-- The three shapes of a scan that is not at its end, with the row each has (R72). -/
theorem destuffRow_cases (p : Params) (b : Byte) (rest : List Byte) :
    (∃ follower left, b :: rest = p.esc :: follower :: left ∧
      destuffRow p (b :: rest) = some (.escPair follower)) ∨
    (b :: rest = [p.esc] ∧ destuffRow p (b :: rest) = some .escTail) ∨
    (b ≠ p.esc ∧ destuffRow p (b :: rest) = some (.literal b)) := by
  by_cases he : b = p.esc
  · subst he
    cases rest with
    | nil => exact .inr (.inl ⟨rfl, destuffRow_tail p⟩)
    | cons follower left => exact .inl ⟨follower, left, rfl, destuffRow_pair p follower left⟩
  · exact .inr (.inr ⟨he, destuffRow_literal he rest⟩)

theorem decode_destuffUnit {scan : List Byte} {row : DestuffRow} (h : destuffRow p scan = some row) :
    decode p c (.destuffUnit scan) = .ok row.instr := by
  simp [decode, h]

/-- What decodes from a scan is the instruction of its row. -/
theorem destuffRow_of_decode {scan : List Byte} (h : decode p c (.destuffUnit scan) = .ok i) :
    ∃ row, destuffRow p scan = some row ∧ row.instr = i := by
  cases hr : destuffRow p scan with
  | none => simp [decode, hr] at h
  | some row => exact ⟨row, rfl, by simpa [decode, hr] using h⟩

/-- The row of a scan is selected, and stands for the front of the scan it consumes. -/
theorem destuffRow_instr {scan : List Byte} {row : DestuffRow} (h : destuffRow p scan = some row) (c : RxContext) :
    row.instr.selected p c = true ∧
      ∃ used left, used ≠ [] ∧ scan = used ++ left ∧ encode p row.instr = .destuffUnit used := by
  cases scan with
  | nil => cases h
  | cons b rest =>
    rcases destuffRow_cases p b rest with ⟨follower, left, hscan, e⟩ | ⟨hscan, e⟩ | ⟨he, e⟩ <;> cases e.symm.trans h
    · exact ⟨rfl, [p.esc, follower], left, by simp, hscan, rfl⟩
    · exact ⟨rfl, [p.esc], [], by simp, hscan, rfl⟩
    · exact ⟨selected_destuffLiteral.mpr he, [b], rest, by simp, rfl, rfl⟩

/-! ### Any transaction -/

/-- The decoder never picks a row that is not selected. -/
theorem decode_selected {w : Transaction} (h : decode p c w = .ok i) : i.selected p c = true := by
  cases w with
  | op select operands =>
    rcases decodeOp_cases select operands with ⟨j, hrow, e⟩ | ⟨-, e⟩ | ⟨-, e⟩ <;> cases e.symm.trans h
    · exact hrow.selected p c
    · rfl
  | rx a => cases h; exact (rxRow_instr p c a).1
  | stuffUnit b => cases h; exact (stuffRow_instr p c b).1
  | destuffUnit scan =>
    obtain ⟨row, hrow, rfl⟩ := destuffRow_of_decode h
    exact (destuffRow_instr hrow c).1

/-- Encoding and then decoding gives an instruction back where its conditions hold. Of the parameters' constraints it
needs that the marker is neither the escape byte nor a resync byte (R6, R7). -/
theorem decode_encode (hesc : p.marker ≠ p.esc) (hresync : p.marker ∉ p.resync) (hwf : i.wellFormed = true)
    (hsel : i.selected p c = true) : decode p c (encode p i) = .ok i := by
  cases i with
  | stuff _ | destuff _ | checksum _ _ _ | encode _ _ _ _ | decode _ | rawbytes _ | serialize _ | send _ | rxStep
  | rxReset => rfl
  | reservedOp code => exact decodeOp_reserved (of_decide_eq_true hwf)
  | rxResync01 b =>
    obtain ⟨hf, hb⟩ := selected_rxResync01.mp hsel
    have h3 : b ≠ 0x03#8 := bne_iff_ne.mp hwf
    exact (decode_rx_resync hf hb).trans (congrArg _ (if_neg h3))
  | rxResync03 =>
    obtain ⟨hf, hb⟩ := selected_rxResync03.mp hsel
    exact decode_rx_resync hf hb
  | rxStart => exact decode_rx (rxRow_start hresync (selected_rxStart.mp hsel))
  | rxNoise =>
    obtain ⟨hs, hl⟩ := selected_rxNoise.mp hsel
    exact decode_rx (rxRow_noise hresync hs hl)
  | rxEnd =>
    obtain ⟨hs, hl⟩ := selected_rxEnd.mp hsel
    exact decode_rx (rxRow_finish hresync hs hl)
  | rxOverflow b =>
    obtain ⟨hm, hs, hl, hn⟩ := selected_rxOverflow.mp hsel
    exact decode_rx (rxRow_overflow hm hn hs hl)
  | rxData b =>
    obtain ⟨hm, hs, hl, hn⟩ := selected_rxData.mp hsel
    exact decode_rx (rxRow_data hm hn hs hl)
  | rxIgnore b =>
    obtain ⟨hm, hs, hn⟩ := selected_rxIgnore.mp hsel
    exact decode_rx (rxRow_ignore hm hn hs)
  | rxNobyte => rfl
  | destuffEscPair follower => exact decode_destuffUnit (destuffRow_pair p follower [])
  | destuffEscTail => exact decode_destuffUnit (destuffRow_tail p)
  | destuffLiteral b => exact decode_destuffUnit (destuffRow_literal (selected_destuffLiteral.mp hsel) [])
  | stuffMarker => exact decode_stuffUnit (stuffRow_marker p)
  | stuffEsc => exact decode_stuffUnit (stuffRow_esc hesc)
  | stuffPlain b =>
    obtain ⟨hm, he⟩ := selected_stuffPlain.mp hsel
    exact decode_stuffUnit (stuffRow_plain hm he)

/-! ### Well-formed frames -/

/-- W1 to W3 of R61, as propositions. -/
theorem Frame.wellFormed_iff (f : Frame) : f.wellFormed = true ↔
    f.headerChecksum = f.address ^^^ f.control ∧
    (f.payload = [] ↔ f.payloadChecksum = none) ∧
    ∀ k, f.payloadChecksum = some k → k = f.payload.foldl (· ^^^ ·) 0x00#8 := by
  have hlayout : f.layoutDefined = true ↔ (f.payload = [] ↔ f.payloadChecksum = none) := by
    rw [Frame.layoutDefined, beq_iff_eq, Bool.eq_iff_iff, List.isEmpty_iff, Option.isNone_iff_eq_none]
  simp only [Frame.wellFormed, Bool.and_eq_true, beq_iff_eq, hlayout, and_assoc]
  cases f.payloadChecksum <;> simp

theorem Frame.control_wellFormed (address control : Byte) :
    Frame.wellFormed ⟨address, control, address ^^^ control, [], none⟩ = true := by
  simp [Frame.wellFormed_iff]

theorem Frame.data_wellFormed (address control : Byte) {payload : List Byte} (hne : payload ≠ []) :
    Frame.wellFormed ⟨address, control, address ^^^ control, payload, some (Machine.xorBytes payload)⟩ = true := by
  simp [Frame.wellFormed_iff, hne, Machine.xorBytes]

end Sys2Proof

namespace Sys2Proof.Machine

/-! ### The unit of a STUFF or DESTUFF row -/

theorem stuffUnit_selected {row : StuffRow} {b : Byte} {s : State} (h : stuffRow s.params b = row) :
    stuffUnit row b s = .next (s.answer (.unit 1 (StuffRow.emits s.params row))) := if_pos h

theorem destuffUnit_selected {row : DestuffRow} {scan : List Byte} {s : State}
    (h : destuffRow s.params scan = some row) : destuffUnit row scan s =
      .next (s.answer (.unit (DestuffRow.consumes row) (DestuffRow.emits row))) := if_pos h

theorem destuffUnit_unselected {row : DestuffRow} {scan : List Byte} {s : State}
    (h : destuffRow s.params scan ≠ some row) : destuffUnit row scan s = .refused .rowNotSelected := if_neg h

/-- The instruction of a byte's row under STUFF emits that row's unit. -/
theorem exec_stuffRow (s : State) (b : Byte) : exec (stuffRow s.params b).instr s =
    .next (s.answer (.unit 1 (StuffRow.emits s.params (stuffRow s.params b)))) := by
  rcases stuffRow_cases s.params b with ⟨rfl, e⟩ | ⟨rfl, e⟩ | ⟨-, -, e⟩ <;> rw [e] <;> exact stuffUnit_selected e

/-- The instruction of a scan's row under DESTUFF emits that row's unit. It meets the consumed front alone, where the
same row is selected. -/
theorem exec_destuffRow {s : State} {scan : List Byte} {row : DestuffRow}
    (h : destuffRow s.params scan = some row) : exec row.instr s =
      .next (s.answer (.unit (DestuffRow.consumes row) (DestuffRow.emits row))) := by
  cases scan with
  | nil => cases h
  | cons b rest =>
    rcases destuffRow_cases s.params b rest with ⟨follower, left, -, e⟩ | ⟨-, e⟩ | ⟨he, e⟩ <;> cases e.symm.trans h
    · exact destuffUnit_selected (destuffRow_pair s.params follower [])
    · exact destuffUnit_selected (destuffRow_tail s.params)
    · exact destuffUnit_selected (destuffRow_literal he [])

/-- A row of DESTUFF makes progress within the scan, and DESTUFF of the scan is what the row emits and then DESTUFF of
the rest (R72, R93). -/
theorem destuffBytes_row {p : Params} {scan : List Byte} {row : DestuffRow} (h : destuffRow p scan = some row) :
    0 < DestuffRow.consumes row ∧ DestuffRow.consumes row ≤ scan.length ∧
      destuffBytes p scan = DestuffRow.emits row ++ destuffBytes p (scan.drop (DestuffRow.consumes row)) := by
  cases scan with
  | nil => cases h
  | cons b rest =>
    rcases destuffRow_cases p b rest with ⟨follower, left, hscan, e⟩ | ⟨hscan, e⟩ | ⟨he, e⟩ <;>
      cases e.symm.trans h
    · rw [hscan]
      exact ⟨by simp [DestuffRow.consumes], by simp [DestuffRow.consumes], destuffBytes_pair p follower left⟩
    · rw [hscan]
      exact ⟨by simp [DestuffRow.consumes], by simp [DestuffRow.consumes], by
        simp [destuffBytes_tail, DestuffRow.emits, DestuffRow.consumes]⟩
    · exact ⟨by simp [DestuffRow.consumes], by simp [DestuffRow.consumes], destuffBytes_literal p he rest⟩

/-! ### Frames on the result port -/

theorem buildFrame_wellFormed (type address : Byte) (payload : List Byte) :
    (buildFrame type address payload).wellFormed = true := by
  cases payload with
  | nil => exact Frame.control_wellFormed address type
  | cons b rest =>
    have hsum : checksumOf (b :: rest) 0 (b :: rest).length = xorBytes (b :: rest) :=
      congrArg xorBytes (byteRange_whole _)
    rw [buildFrame, if_neg (by simp), hsum]
    exact Frame.data_wellFormed address type (by simp)

/-- A frame that DECODE returns has passed both checksum tests (R123, R127). -/
theorem decodeBytes_wellFormed {d : List Byte} {f : Frame} (h : decodeBytes d = .frame f) : f.wellFormed = true := by
  match d with
  | [] | [_] | [_, _] => cases h
  | a :: c :: k :: tail =>
    rw [decodeBytes_cons] at h
    split_ifs at h with hk htail hsum hone
    · obtain rfl := not_not.mp hk
      cases h
      exact Frame.control_wellFormed a c
    · obtain rfl := not_not.mp hk
      cases h
      exact Frame.control_wellFormed a c
    · obtain rfl := not_not.mp hk
      have hne : tail.dropLast ≠ [] := by
        have : 0 < tail.length := List.length_pos_iff.mpr htail
        rw [← List.length_pos_iff, List.length_dropLast]
        omega
      rw [← not_not.mp hsum] at h
      cases h
      exact Frame.data_wellFormed a c hne

/-- Where a result carries a frame, the frame is well-formed. -/
def ResultWellFormed : Result → Prop
  | .encoded (.frame f) | .decoded (.frame f) | .rx (.frame f) => f.wellFormed = true
  | _ => True

theorem takeRow_resultWellFormed (row : RxRow) (s : State) : ResultWellFormed (takeRow row s).out.result := by
  cases row with
  | finish =>
    show ResultWellFormed (.rx (decodeWire s.params s.buf).toRx)
    cases hd : decodeWire s.params s.buf with
    | frame f => exact decodeBytes_wellFormed hd
    | error k => trivial
  | _ => trivial

theorem exec_resultWellFormed {i : Instr} {s t : State} (h : exec i s = .next t) :
    ResultWellFormed t.out.result := by
  cases i with
  | stuff _ | destuff _ | rxReset => cases h; trivial
  | checksum _ _ _ => obtain ⟨-, rfl⟩ := execChecksum_next h; trivial
  | encode type address payload _ =>
    obtain ⟨-, rfl⟩ | ⟨-, rfl⟩ := execEncode_next h
    · exact buildFrame_wellFormed type address payload
    · trivial
  | decode d =>
    cases h
    show ResultWellFormed (.decoded (decodeBytes d))
    cases hd : decodeBytes d with
    | frame f => exact decodeBytes_wellFormed hd
    | error k => trivial
  | rawbytes _ => obtain ⟨-, -, -, rfl⟩ := execRawbytes_next h; trivial
  | serialize _ => obtain ⟨-, -, -, rfl⟩ := execSerialize_next h; trivial
  | send _ => obtain ⟨-, -, -, -, -, ⟨-, rfl⟩ | ⟨-, -, rfl⟩⟩ := execSend_next h <;> trivial
  | reservedOp _ => cases h
  | rxStep =>
    rw [show exec .rxStep s = execRxStep s from rfl, execRxStep_eq] at h
    cases h
    exact takeRow_resultWellFormed _ _
  | rxResync01 _ | rxResync03 | rxStart | rxNoise | rxEnd | rxOverflow _ | rxData _ | rxIgnore _ =>
    obtain ⟨-, rfl⟩ := rxUnit_next h
    exact takeRow_resultWellFormed _ _
  | rxNobyte => obtain ⟨-, rfl⟩ := rxUnit_next (row := .noByte) (answer := none) h; trivial
  | destuffEscPair _ | destuffEscTail | destuffLiteral _ => obtain ⟨-, rfl⟩ := destuffUnit_next h; trivial
  | stuffMarker | stuffEsc | stuffPlain _ => obtain ⟨-, rfl⟩ := stuffUnit_next h; trivial

/-! ### The statements -/

/-- Settles O52: each constructor's code or row is the one its encoding selects. -/
theorem decodeOfEncodeIsTheInstruction : Obligations.DecodeOfEncodeIsTheInstruction := by
  intro p c i hp hwf hsel
  obtain ⟨hesc, -, hresync, -⟩ := (Params.valid_iff p).mp hp
  exact decode_encode hesc hresync hwf hsel

/-- Settles O11: the decoded row's unit, and the whole operation one row at a time. -/
theorem byteRowsTileTheScan : Obligations.ByteRowsTileTheScan := by
  intro s b rest
  refine ⟨⟨_, _, _, rfl, exec_stuffRow s b, rfl, rfl⟩, ?_⟩
  obtain ⟨row, hrow⟩ : ∃ row, destuffRow s.params (b :: rest) = some row := by
    rcases destuffRow_cases s.params b rest with ⟨_, _, -, e⟩ | ⟨-, e⟩ | ⟨-, e⟩ <;> exact ⟨_, e⟩
  obtain ⟨hpos, hle, htile⟩ := destuffBytes_row hrow
  refine ⟨_, _, _, _, decode_destuffUnit hrow, hpos, hle, exec_destuffRow hrow, rfl, ?_⟩
  rw [← htile]
  rfl

/-- Settles O16: every meaning that puts a frame on the result port builds it or has checked it. -/
theorem returnedFramesAreWellFormed : Obligations.ReturnedFramesAreWellFormed := by
  intro i s t f h hr
  have hwf := exec_resultWellFormed h
  refine (Frame.wellFormed_iff f).mp ?_
  rcases hr with e | e | e <;> rw [e] at hwf <;> exact hwf

/-- Settles O27: with the flag set the byte's row is RESYNC; with the flag clear no answer has that row. -/
theorem resyncByteRestartsAccumulation : Obligations.ResyncByteRestartsAccumulation := by
  intro s b
  refine ⟨fun hf hb => ?_, fun hf => ?_⟩
  · have hrow : rxRow s.params s.rxContext (some b) = .resync b := rxRow_resync hf hb
    refine ⟨fun _ => rxUnit_selected hrow, ?_, fun rest hrx => ?_⟩
    · rintro rfl
      exact rxUnit_selected hrow
    · rw [show exec .rxStep s = execRxStep s from rfl, execRxStep_cons hrx, hrow]
      rfl
  · have hclear : ¬ s.rxContext.fail = true := by simp [hf]
    exact ⟨rxUnit_unselected (rxRow_ne_resync hf _ _), rxUnit_unselected (rxRow_ne_resync hf _ _),
      fun h => hclear (selected_rxResync01.mp (decode_selected h)).1,
      fun h => hclear (selected_rxResync03.mp (decode_selected h)).1⟩

/-- Settles O35: RX_STEP takes the selected row's transition, which is what that row's instruction does. -/
theorem rxStepRunsItsDecodedRow : Obligations.RxStepRunsItsDecodedRow :=
  fun s => ⟨fun a rest h => ⟨_, _, rfl, execRxStep_cons h, exec_selectedRow { s with rx := rest } a⟩,
    fun h => ⟨Config.freeRead s.free, _, _, rfl, execRxStep_free h,
      exec_selectedRow { s with free := s.free + 1 } (Config.freeRead s.free)⟩⟩

/-- Settles O53: the row of each port is selected and stands for its transaction, and a defined code has one
operation. -/
theorem encodeOfDecodeIsTheTransaction : Obligations.EncodeOfDecodeIsTheTransaction := by
  intro p c w i _ h
  refine ⟨decode_selected h, ?_⟩
  cases w with
  | op select operands => exact fun hlt => ((decodeOp_ok_iff hlt).mp h).encode_eq p
  | rx a => cases h; exact (rxRow_instr p c a).2
  | stuffUnit b => cases h; exact (stuffRow_instr p c b).2
  | destuffUnit scan =>
    obtain ⟨row, hrow, rfl⟩ := destuffRow_of_decode h
    exact (destuffRow_instr hrow c).2

/-- Settles O10: each row meets a scan that has it, and the escape byte alone is an escape tail, no literal. -/
theorem destuffRowsEmitTheirUnit : Obligations.DestuffRowsEmitTheirUnit := by
  refine fun s b => ⟨exec_destuffRow (destuffRow_pair s.params b []), exec_destuffRow (destuffRow_tail s.params),
    fun he => exec_destuffRow (destuffRow_literal he []), ?_⟩
  rintro rfl
  exact destuffUnit_unselected (by simp [destuffRow_tail])

/-- Settles O37: both steps take the transition of the answer's row in the same state. -/
theorem rxLineIsRxStepWithItsAnswer : Obligations.RxLineIsRxStepWithItsAnswer := by
  intro s a hp
  refine ⟨takeRow (rxRow s.params s.rxContext a) s, step_rxLine hp rfl, ?_⟩
  calc step { s with requests := .op 0x8#4 .none :: s.requests, rx := a :: s.rx }
      = exec .rxStep { s with rx := a :: s.rx } := step_decoded hp rfl rfl
    _ = .next (takeRow (rxRow s.params s.rxContext a) s) := execRxStep_cons rfl

/-- Settles O54: a defined code decodes exactly along the operation map, and otherwise to the refusal. -/
theorem operationCodesSelectTheirOperations : Obligations.OperationCodesSelectTheirOperations := by
  intro p c select operands i hlt
  refine ⟨(decodeOp_ok_iff hlt).trans ⟨fun h => ?_, ?_⟩, fun hno => ?_⟩
  · cases h <;> simp
  · rintro (⟨x, rfl, rfl, rfl⟩ | ⟨x, rfl, rfl, rfl⟩ | ⟨buffer, start, length, rfl, rfl, rfl⟩ |
      ⟨type, address, payload, maxPayload, rfl, rfl, rfl⟩ | ⟨x, rfl, rfl, rfl⟩ | ⟨f, rfl, rfl, rfl⟩ |
      ⟨f, rfl, rfl, rfl⟩ | ⟨f, rfl, rfl, rfl⟩ | ⟨rfl, rfl, rfl⟩ | ⟨rfl, rfl, rfl⟩) <;> constructor
  · rcases decodeOp_cases select operands with ⟨j, -, e⟩ | ⟨-, e⟩ | ⟨-, e⟩
    · exact absurd e (hno j)
    · exact e
    · exact absurd e (hno _)

/-- Settles O55: eight words, each decoded by evaluation. -/
theorem tableWordsDecode : Obligations.TableWordsDecode :=
  ⟨rfl, rfl, rfl, rfl, rfl, rfl, rfl, rfl⟩

end Sys2Proof.Machine


/-! PROOFS of spec/41_stuffing.md: what STUFF and DESTUFF compute, that their outputs are bounded and unambiguous, and
that each undoes the other where it can. -/

namespace Sys2Proof.Machine

variable {p : Params} {b : Byte}

/-! ### The escape transform -/

theorem escapeByte_eq_iff {a : Byte} : escapeByte a = b ↔ a ^^^ b = xorMask := by
  constructor
  · rintro rfl
    simp [escapeByte]
  · intro h
    simp [escapeByte, ← h]

/-- Under the constraints of R6 the transform takes a reserved byte out of the reserved bytes (R92). -/
theorem escapeByte_not_reserved (hp : p.valid = true) (hb : b = p.marker ∨ b = p.esc) :
    escapeByte b ≠ p.marker ∧ escapeByte b ≠ p.esc := by
  obtain ⟨-, hmask, -⟩ := (Params.valid_iff p).mp hp
  rcases hb with rfl | rfl
  · exact ⟨escapeByte_ne _, fun h => hmask (escapeByte_eq_iff.mp h)⟩
  · exact ⟨fun h => hmask ((BitVec.xor_comm _ _).trans (escapeByte_eq_iff.mp h)), escapeByte_ne _⟩

/-! ### The two operations on the result port -/

theorem exec_stuff (s : State) (raw : List Byte) :
    exec (.stuff raw) s = .next { s with out := ⟨.bytes (stuffBytes s.params raw), false, none⟩ } := rfl

theorem exec_destuff (s : State) (stuffed : List Byte) :
    exec (.destuff stuffed) s = .next { s with out := ⟨.bytes (destuffBytes s.params stuffed), false, none⟩ } := rfl

/-- The result port shows which sequence STUFF answered. -/
theorem exec_stuff_eq_iff {s : State} {raw out : List Byte} :
    exec (.stuff raw) s = .next { s with out := ⟨.bytes out, false, none⟩ } ↔ stuffBytes s.params raw = out := by
  simp [exec_stuff]

/-! ### The refusal of a STUFF row -/

theorem stuffUnit_unselected {row : StuffRow} {s : State} (h : stuffRow s.params b ≠ row) :
    stuffUnit row b s = .refused .rowNotSelected := if_neg h

theorem stuffRow_ne_plain (hb : b = p.marker ∨ b = p.esc) : stuffRow p b ≠ .plain b := by
  rcases stuffRow_cases p b with ⟨-, e⟩ | ⟨-, e⟩ | ⟨hm, he, -⟩
  · simp [e]
  · simp [e]
  · exact absurd hb (not_or.mpr ⟨hm, he⟩)

/-! ### STUFF, byte by byte -/

theorem stuffBytes_reserved (hb : b = p.marker ∨ b = p.esc) (rest : List Byte) :
    stuffBytes p (b :: rest) = p.esc :: escapeByte b :: stuffBytes p rest := by
  rw [stuffBytes_cons, stuffRow_emits, if_pos hb]
  rfl

theorem stuffBytes_plain (hb : ¬(b = p.marker ∨ b = p.esc)) (rest : List Byte) :
    stuffBytes p (b :: rest) = b :: stuffBytes p rest := by
  rw [stuffBytes_cons, stuffRow_emits, if_neg hb]
  rfl

theorem stuffBytes_eq_flatMap (p : Params) (raw : List Byte) : stuffBytes p raw =
    raw.flatMap fun b => if b = p.marker ∨ b = p.esc then [p.esc, b ^^^ xorMask] else [b] := by
  induction raw with
  | nil => rfl
  | cons b rest ih => rw [stuffBytes_cons, stuffRow_emits, ih, List.flatMap_cons]

theorem stuffBytes_append (p : Params) (x y : List Byte) :
    stuffBytes p (x ++ y) = stuffBytes p x ++ stuffBytes p y := by
  simp only [stuffBytes_eq_flatMap, List.flatMap_append]

theorem stuffBytes_length (p : Params) (raw : List Byte) :
    (stuffBytes p raw).length = raw.length + raw.countP (fun b => b == p.marker || b == p.esc) := by
  induction raw with
  | nil => rfl
  | cons b rest ih =>
    by_cases hb : b = p.marker ∨ b = p.esc
    · rw [stuffBytes_reserved hb, List.countP_cons_of_pos (by simpa using hb)]
      simp only [List.length_cons, ih]
      omega
    · rw [stuffBytes_plain hb, List.countP_cons_of_neg (by simpa using hb)]
      simp only [List.length_cons, ih]
      omega

/-- R92 (S1): a literal is not reserved, and neither byte of a pair is the marker. -/
theorem marker_notMem_stuffBytes (hp : p.valid = true) (raw : List Byte) : p.marker ∉ stuffBytes p raw := by
  obtain ⟨hne, -⟩ := (Params.valid_iff p).mp hp
  induction raw with
  | nil => exact List.not_mem_nil
  | cons b rest ih =>
    by_cases hb : b = p.marker ∨ b = p.esc
    · rw [stuffBytes_reserved hb]
      exact List.not_mem_cons_of_ne_of_not_mem hne
        (List.not_mem_cons_of_ne_of_not_mem (escapeByte_not_reserved hp hb).1.symm ih)
    · rw [stuffBytes_plain hb]
      exact List.not_mem_cons_of_ne_of_not_mem (fun h => hb (.inl h.symm)) ih

/-! ### Escape pairs in STUFF's output -/

/-- R92 (S2): every escape byte is followed by a transformed reserved byte that is itself not reserved. -/
def EscapesPaired (p : Params) (out : List Byte) : Prop :=
  ∀ i : Nat, out[i]? = some p.esc → ∃ f, out[i + 1]? = some f ∧
    (f = p.marker ^^^ xorMask ∨ f = p.esc ^^^ xorMask) ∧ f ≠ p.marker ∧ f ≠ p.esc

theorem EscapesPaired.literal {out : List Byte} (h : EscapesPaired p out) (hb : b ≠ p.esc) :
    EscapesPaired p (b :: out) := by
  intro i hi
  cases i with
  | zero => exact absurd (Option.some.inj hi) hb
  | succ i => exact h i hi

theorem EscapesPaired.pair {out : List Byte} (h : EscapesPaired p out) (hp : p.valid = true)
    (hb : b = p.marker ∨ b = p.esc) : EscapesPaired p (p.esc :: escapeByte b :: out) := by
  obtain ⟨hm, he⟩ := escapeByte_not_reserved hp hb
  intro i hi
  cases i with
  | zero => exact ⟨escapeByte b, rfl, hb.imp (congrArg escapeByte) (congrArg escapeByte), hm, he⟩
  | succ i => exact h.literal he i hi

/-- R92 (S3): the last byte has no follower, so it is no escape byte. -/
theorem EscapesPaired.getLast?_ne {out : List Byte} (h : EscapesPaired p out) : out.getLast? ≠ some p.esc := by
  intro hlast
  rw [List.getLast?_eq_getElem?] at hlast
  obtain ⟨f, hf, -⟩ := h _ hlast
  have := (List.getElem?_eq_some_iff.mp hf).1
  omega

theorem stuffBytes_escapesPaired (hp : p.valid = true) (raw : List Byte) : EscapesPaired p (stuffBytes p raw) := by
  induction raw with
  | nil => exact fun i hi => nomatch hi
  | cons b rest ih =>
    by_cases hb : b = p.marker ∨ b = p.esc
    · rw [stuffBytes_reserved hb]
      exact ih.pair hp hb
    · rw [stuffBytes_plain hb]
      exact ih.literal fun h => hb (.inr h)

/-! ### DESTUFF, along its scan -/

/-- Induction along DESTUFF's scan: its end, a trailing escape, an escape pair, a literal (R93). -/
theorem destuff_induction (p : Params) {motive : List Byte → Prop} (nil : motive []) (tail : motive [p.esc])
    (pair : ∀ follower rest, motive rest → motive (p.esc :: follower :: rest))
    (literal : ∀ b rest, b ≠ p.esc → motive rest → motive (b :: rest)) : ∀ x, motive x
  | [] => nil
  | [b] => if h : b = p.esc then h ▸ tail else literal b [] h nil
  | b :: follower :: rest =>
    if h : b = p.esc then h ▸ pair follower rest (destuff_induction p nil tail pair literal rest)
    else literal b (follower :: rest) h (destuff_induction p nil tail pair literal (follower :: rest))

theorem destuffBytes_length (p : Params) (x : List Byte) :
    x.length / 2 ≤ (destuffBytes p x).length ∧ (destuffBytes p x).length ≤ x.length := by
  induction x using destuff_induction p with
  | nil => simp
  | tail => simp [destuffBytes_tail]
  | pair follower rest ih => simp only [destuffBytes_pair, List.length_cons]; omega
  | literal b rest hb ih => simp only [destuffBytes_literal p hb, List.length_cons]; omega

/-- The streaming form from a position that is no follower, after the bytes `emitted`. -/
theorem foldl_destuffStreamByte (p : Params) (x emitted : List Byte) :
    (x.foldl (destuffStreamByte p) (false, emitted)).2 = emitted ++ destuffBytes p x := by
  induction x using destuff_induction p generalizing emitted with
  | nil => simp
  | tail => simp [destuffStreamByte, destuffBytes_tail]
  | pair follower rest ih => simp [destuffStreamByte, destuffBytes_pair, ih]
  | literal b rest hb ih => simp [destuffStreamByte, destuffBytes_literal p hb, hb, ih]

theorem destuffStream_eq (p : Params) (x : List Byte) : destuffStream p x = destuffBytes p x :=
  foldl_destuffStreamByte p x []

/-- R96; it needs no constraint on the parameters. -/
@[simp] theorem destuffBytes_stuffBytes (p : Params) (x : List Byte) : destuffBytes p (stuffBytes p x) = x := by
  induction x with
  | nil => simp
  | cons b rest ih =>
    by_cases hb : b = p.marker ∨ b = p.esc
    · rw [stuffBytes_reserved hb, destuffBytes_pair, escapeByte_escapeByte, ih]
    · rw [stuffBytes_plain hb, destuffBytes_literal p fun h => hb (.inr h), ih]

/-- R97: STUFF undoes DESTUFF exactly on the image of STUFF. -/
theorem stuffBytes_destuffBytes_iff {x : List Byte} :
    stuffBytes p (destuffBytes p x) = x ↔ ∃ y, stuffBytes p y = x := by
  refine ⟨fun h => ⟨_, h⟩, ?_⟩
  rintro ⟨y, rfl⟩
  rw [destuffBytes_stuffBytes]

/-! ### The statements -/

/-- Settles O1: STUFF's loop is a `flatMap` of the bytes' rows. -/
theorem stuffEscapesReservedBytes : Obligations.StuffEscapesReservedBytes :=
  fun s raw => exec_stuff_eq_iff.mpr (stuffBytes_eq_flatMap s.params raw)

/-- Settles O2: the exact length counts the reserved bytes, of which there are at most as many as bytes. -/
theorem stuffLengthAndConcatenation : Obligations.StuffLengthAndConcatenation := by
  intro s x y
  have hlen := stuffBytes_length s.params x
  have hcount := List.countP_le_length (p := fun b => b == s.params.marker || b == s.params.esc) (l := x)
  exact ⟨_, _, exec_stuff s x, exec_stuff s y, exec_stuff_eq_iff.mpr (stuffBytes_append s.params x y), hlen, by omega,
    by omega⟩

/-- Settles O3: no row emits the marker, and the escape bytes stand in the pairs alone. -/
theorem stuffOutputIsUnambiguous : Obligations.StuffOutputIsUnambiguous := by
  intro s raw hp
  have hpaired := stuffBytes_escapesPaired hp raw
  exact ⟨_, exec_stuff s raw, marker_notMem_stuffBytes hp raw, hpaired, hpaired.getLast?_ne⟩

/-- Settles O4: the scan's equations are those of `destuffBytes`. -/
theorem destuffScansEscapePairs : Obligations.DestuffScansEscapePairs :=
  fun s => ⟨destuffBytes s.params, exec_destuff s, destuffBytes_nil _, destuffBytes_pair _, destuffBytes_tail _,
    fun _ rest hb => destuffBytes_literal _ hb rest⟩

/-- Settles O5: the pending bit is set exactly while the scan stands at a follower. -/
theorem streamingDestuffAgrees : Obligations.StreamingDestuffAgrees := by
  intro s x
  rw [exec_destuff, destuffStream_eq]

/-- Settles O6: a pair halves its two bytes, a tail drops one, a literal keeps its byte. -/
theorem destuffLengthBounds : Obligations.DestuffLengthBounds :=
  fun s x => ⟨_, exec_destuff s x, destuffBytes_length s.params x⟩

/-- Settles O7: STUFF leaves the parameters, and with the same parameters DESTUFF gives the sequence back. -/
theorem destuffUndoesStuff : Obligations.DestuffUndoesStuff := by
  intro s x
  refine ⟨_, _, exec_stuff s x, rfl, ?_⟩
  rw [exec_destuff, destuffBytes_stuffBytes]

/-- Settles O8: what DESTUFF answers is the only candidate, since DESTUFF undoes STUFF; a lone escape byte
is dropped. -/
theorem stuffUndoesDestuffOnlyOnItsImage : Obligations.StuffUndoesDestuffOnlyOnItsImage := by
  refine ⟨fun s x => ⟨_, exec_destuff s x, ?_⟩, fun s => ?_⟩
  · simp only [exec_stuff_eq_iff]
    exact stuffBytes_destuffBytes_iff
  · rw [exec_destuff, exec_destuff, destuffBytes_tail, destuffBytes_nil]

/-- Settles O9: each row meets a byte that has it; of the constraints it needs that the marker is not the escape
byte. -/
theorem stuffRowsEmitTheirUnit : Obligations.StuffRowsEmitTheirUnit := by
  intro s b hp
  obtain ⟨hne, -⟩ := (Params.valid_iff s.params).mp hp
  exact ⟨stuffUnit_selected (stuffRow_marker s.params), stuffUnit_selected (stuffRow_esc hne),
    fun hm he => stuffUnit_selected (stuffRow_plain hm he), fun hb => stuffUnit_unselected (stuffRow_ne_plain hb)⟩

end Sys2Proof.Machine


/-! PROOFS of spec/42_checksum.md: CHECKSUM is the XOR of its range, how XOR follows a split, a reordering and one
changed byte, and that DECODE's two tests are such XORs of the raw bytes. -/

namespace Sys2Proof.Machine

/-! ### The XOR of a sequence -/

theorem xorBytes_append (x y : List Byte) : xorBytes (x ++ y) = xorBytes x ^^^ xorBytes y :=
  List.foldl_append.trans (foldl_xor y (xorBytes x))

theorem xorBytes_perm {x y : List Byte} (h : x.Perm y) : xorBytes x = xorBytes y := h.foldl_eq 0x00#8

/-- R114 (1): one changed byte does not cancel, since the rest of the sequence stands on both sides. -/
theorem xorBytes_set_eq_iff {l : List Byte} {i : Nat} (b : Byte) (hi : i < l.length) :
    xorBytes (l.set i b) = xorBytes l ↔ l[i]? = some b := by
  induction l generalizing i with
  | nil => cases hi
  | cons a l ih =>
    cases i with
    | zero =>
      rw [List.set_cons_zero, xorBytes_cons, xorBytes_cons, BitVec.xor_left_inj]
      simp [eq_comm]
    | succ i =>
      rw [List.set_cons_succ, xorBytes_cons, xorBytes_cons, BitVec.xor_right_inj, List.getElem?_cons_succ]
      exact ih (Nat.lt_of_succ_lt_succ hi)

/-- A sequence that ends in a byte has XOR zero exactly when that byte is the XOR of the others. -/
theorem xorBytes_eq_zero_iff {l : List Byte} (hl : l ≠ []) :
    xorBytes l = 0x00#8 ↔ xorBytes l.dropLast = l.getLastD 0x00#8 := by
  have hsplit : l.dropLast ++ [l.getLastD 0x00#8] = l := by
    rw [List.getLastD_eq_getLast?, List.getLast?_eq_some_getLast hl]
    exact List.dropLast_concat_getLast hl
  calc xorBytes l = 0x00#8
      ↔ xorBytes (l.dropLast ++ [l.getLastD 0x00#8]) = 0x00#8 := by rw [hsplit]
    _ ↔ xorBytes l.dropLast = l.getLastD 0x00#8 := by simp [xorBytes_append, xorBytes_cons]

/-- W1 of R61: a header has XOR zero exactly when its checksum is right. -/
theorem xorBytes_header_eq_zero_iff (a c h : Byte) : xorBytes [a, c, h] = 0x00#8 ↔ h = a ^^^ c := by
  rw [xorBytes_eq_zero_iff (by simp)]
  simp [xorBytes_cons, eq_comm]

/-! ### CHECKSUM on a range in bounds -/

variable {buffer : List Byte} {start length : Nat}

theorem exec_checksum (h : start + length ≤ buffer.length) (s : State) :
    exec (.checksum buffer start length) s =
      .next { s with out := ⟨.byte (xorBytes (byteRange buffer start length)), false, none⟩ } :=
  if_pos (decide_eq_true h)

theorem exec_checksum_whole (buffer : List Byte) (s : State) : exec (.checksum buffer 0 buffer.length) s =
    .next { s with out := ⟨.byte (xorBytes buffer), false, none⟩ } := by
  rw [exec_checksum (Nat.zero_add _).le, byteRange_whole]

/-- The bytes of a range in bounds are those at the indices `start .. start+length-1`. -/
theorem byteRange_eq_map (h : start + length ≤ buffer.length) :
    byteRange buffer start length = (List.range' start length).map fun i => buffer.getD i 0x00#8 := by
  apply List.ext_getElem
  · simp [byteRange_length h]
  · intro k hk _
    rw [byteRange_length h] at hk
    simp [byteRange, List.getElem?_eq_getElem (show start + k < buffer.length by omega)]

theorem xorBytes_byteRange (h : start + length ≤ buffer.length) : xorBytes (byteRange buffer start length) =
    (List.range' start length).foldl (fun acc i => acc ^^^ buffer.getD i 0x00#8) 0x00#8 := by
  rw [byteRange_eq_map h, xorBytes, List.foldl_map]

theorem byteRange_set {i : Nat} (b : Byte) (hi : start ≤ i) :
    byteRange (buffer.set i b) start length = (byteRange buffer start length).set (i - start) b := by
  rw [byteRange, List.drop_set, if_neg (by omega), List.take_set, byteRange]

theorem getElem?_byteRange {k : Nat} (hk : k < length) : (byteRange buffer start length)[k]? = buffer[start + k]? := by
  rw [byteRange, List.getElem?_take_of_lt hk, List.getElem?_drop]

/-! ### DECODE's two tests as XORs -/

theorem exec_decode (s : State) (d : List Byte) :
    exec (.decode d) s = .next { s with out := ⟨.decoded (decodeBytes d), false, none⟩ } := rfl

theorem decodeBytes_headerMismatch {d : List Byte} (hlen : 3 ≤ d.length) (h : xorBytes (d.take 3) ≠ 0x00#8) :
    decodeBytes d = .error .headerChecksumMismatch := by
  match d with
  | a :: c :: k :: tail =>
    rw [decodeBytes_cons, if_pos]
    exact mt (xorBytes_header_eq_zero_iff a c k).mpr h

theorem decodeBytes_payloadMismatch {d : List Byte} (hheader : xorBytes (d.take 3) = 0x00#8)
    (h : xorBytes (d.drop 3) ≠ 0x00#8) : decodeBytes d = .error .payloadChecksumMismatch := by
  match d with
  | [] | [_] | [_, _] => exact absurd rfl h
  | a :: c :: k :: tail =>
    have hk : k = a ^^^ c := (xorBytes_header_eq_zero_iff a c k).mp hheader
    have htail : tail ≠ [] := by
      rintro rfl
      exact h rfl
    rw [decodeBytes_cons, if_neg (not_not.mpr hk), if_neg htail, if_pos]
    exact mt (xorBytes_eq_zero_iff htail).mpr h

/-! ### The raw bytes of a well-formed frame -/

theorem three_le_length_rawBytes (f : Frame) : 3 ≤ (rawBytes f).length := by
  simp [rawBytes]

/-- W1 to W3 of R61 on the raw bytes: the header, and what follows it, each have XOR zero. -/
theorem xorBytes_rawBytes {f : Frame} (hf : f.wellFormed = true) :
    xorBytes ((rawBytes f).take 3) = 0x00#8 ∧ xorBytes ((rawBytes f).drop 3) = 0x00#8 := by
  obtain ⟨hheader, hlayout, hsum⟩ := f.wellFormed_iff.mp hf
  refine ⟨(xorBytes_header_eq_zero_iff _ _ _).mpr hheader, ?_⟩
  obtain ⟨a, c, h, payload, checksum⟩ := f
  cases checksum with
  | none =>
    obtain rfl : payload = [] := hlayout.mpr rfl
    rfl
  | some k =>
    have hne : payload ≠ [] := fun he => nomatch hlayout.mp he
    obtain rfl : k = xorBytes payload := hsum k rfl
    simp [rawBytes_data _ _ _ _ hne, xorBytes_append, xorBytes_cons]

/-- R114 (1), (2): the changed byte takes away the zero of the XOR it belongs to, and leaves the other. -/
theorem decodeBytes_rawBytes_set {f : Frame} (hf : f.wellFormed = true) {i : Nat} {b : Byte}
    (hi : i < (rawBytes f).length) (hb : (rawBytes f)[i]? ≠ some b) : decodeBytes ((rawBytes f).set i b) =
      .error (if i < 3 then .headerChecksumMismatch else .payloadChecksumMismatch) := by
  obtain ⟨hheader, htail⟩ := xorBytes_rawBytes hf
  by_cases h3 : i < 3
  · rw [if_pos h3]
    apply decodeBytes_headerMismatch (by simpa using three_le_length_rawBytes f)
    rw [List.take_set, ← hheader, Ne, xorBytes_set_eq_iff b (by simp [h3, hi]), List.getElem?_take_of_lt h3]
    exact hb
  · rw [if_neg h3]
    apply decodeBytes_payloadMismatch
    · rw [List.take_set_of_le (Nat.le_of_not_lt h3), hheader]
    · rw [List.drop_set, if_neg h3, ← htail, Ne, xorBytes_set_eq_iff b (by simp; omega), List.getElem?_drop,
        Nat.add_sub_cancel' (Nat.le_of_not_lt h3)]
      exact hb

/-! ### The statements -/

/-- Settles O12: the range's bytes are the buffer's bytes at its indices. -/
theorem checksumXorsTheRange : Obligations.ChecksumXorsTheRange := by
  intro s buffer start length h
  rw [exec_checksum h, xorBytes_byteRange h]

/-- Settles O13: XOR is associative and commutative, and the XOR of no byte is 0x00. -/
theorem checksumSplitsAndIgnoresOrder : Obligations.ChecksumSplitsAndIgnoresOrder := by
  intro s x y
  refine ⟨_, _, exec_checksum_whole x s, exec_checksum_whole y s, ?_, xorBytes_perm, fun start h => ?_⟩
  · rw [exec_checksum_whole, xorBytes_append]
  · exact exec_checksum h s

/-- Settles O14: the other bytes of the range are the same on both sides and cancel. -/
theorem checksumDetectsOneChangedByte : Obligations.ChecksumDetectsOneChangedByte := by
  intro s buffer start length i b h hlo hhi hb
  refine ⟨_, _, exec_checksum h s, exec_checksum (by simpa using h) s, Ne.symm ?_⟩
  rw [byteRange_set b hlo, Ne, xorBytes_set_eq_iff b (by rw [byteRange_length h]; omega),
    getElem?_byteRange (by omega), Nat.add_sub_cancel' hlo]
  exact hb

/-- Settles O23: ENCODE's frame is well-formed, so both XORs of its raw bytes are zero until a byte changes. -/
theorem oneCorruptRawByteIsReported : Obligations.OneCorruptRawByteIsReported := by
  intro s type address b payload raw f i hencode hraw hi hb
  have hf : f.wellFormed = true := exec_resultWellFormed hencode
  obtain ⟨_, hg, -, hout⟩ := execRawbytes_next hraw
  cases hg
  obtain rfl : raw = rawBytes f := Result.bytes.inj (congrArg (·.out.result) hout)
  rw [exec_decode, decodeBytes_rawBytes_set hf hi hb]

end Sys2Proof.Machine


/-! PROOFS of spec/43_frame_codec.md: DECODE's header test, the layout RAWBYTES and SERIALIZE give a frame, that DECODE
undoes RAWBYTES, and how long a payload can be that DECODE returns. -/

namespace Sys2Proof

/-- W2 of R61, as a proposition. -/
theorem Frame.layoutDefined_iff (f : Frame) :
    f.layoutDefined = true ↔ (f.payload = [] ↔ f.payloadChecksum = none) := by
  rw [Frame.layoutDefined, beq_iff_eq, Bool.eq_iff_iff, List.isEmpty_iff, Option.isNone_iff_eq_none]

theorem Frame.layoutDefined_of_wellFormed {f : Frame} (hf : f.wellFormed = true) : f.layoutDefined = true :=
  f.layoutDefined_iff.mpr (f.wellFormed_iff.mp hf).2.1

theorem EncodeResult.usable_iff {f : EncodeResult} :
    f.usable = true ↔ ∃ g, f = .frame g ∧ g.layoutDefined = true := by
  cases f <;> simp [EncodeResult.usable]

end Sys2Proof

namespace Sys2Proof.Machine

/-! ### DECODE's header test -/

/-- The result port shows what DECODE answered. -/
theorem exec_decode_eq_iff {s : State} {d : List Byte} {r : DecodeResult} :
    exec (.decode d) s = .next { s with out := ⟨.decoded r, false, none⟩ } ↔ decodeBytes d = r := by
  simp [exec_decode]

/-- R124: no later test of R123 answers the header error. -/
theorem decodeBytes_headerMismatch_iff (a c h : Byte) (tail : List Byte) :
    decodeBytes (a :: c :: h :: tail) = .error .headerChecksumMismatch ↔ h ≠ a ^^^ c := by
  rw [decodeBytes_cons]
  refine ⟨fun hd heq => ?_, fun hne => if_pos hne⟩
  rw [if_neg (not_not.mpr heq)] at hd
  split_ifs at hd
  cases hd

/-! ### RAWBYTES and SERIALIZE on a frame whose layout is defined -/

variable {g : Frame}

theorem exec_rawbytes (hg : g.layoutDefined = true) (s : State) : exec (.rawbytes (.frame g)) s =
    .next { s with out := ⟨.bytes (rawBytes g), false, none⟩ } := if_pos hg

theorem exec_rawbytes_refused (hg : ¬ g.layoutDefined = true) (s : State) :
    exec (.rawbytes (.frame g)) s = .refused .frameLayoutUndefined := if_neg hg

theorem exec_serialize (hg : g.layoutDefined = true) (s : State) : exec (.serialize (.frame g)) s =
    .next { s with out := ⟨.bytes (wireBytes s.params g), false, none⟩ } := if_pos hg

/-! ### The wire form -/

/-- A byte put at both ends of a sequence that does not hold it stands at these two indices only. -/
theorem getElem?_wrapped_iff {m : Byte} {x : List Byte} (hm : m ∉ x) (i : Nat) :
    ([m] ++ x ++ [m])[i]? = some m ↔ i = 0 ∨ i = x.length + 1 := by
  cases i with
  | zero => simp
  | succ i =>
    show (x ++ [m])[i]? = some m ↔ _
    rcases Nat.lt_or_ge i x.length with hi | hi
    · have hne : x[i]? ≠ some m := fun h => hm (List.mem_of_getElem? h)
      simp [List.getElem?_append_left hi, hne, hi.ne]
    · rw [List.getElem?_append_right hi, List.getElem?_singleton]
      simp [show i - x.length = 0 ↔ i = x.length by omega]

/-- R132 (b). -/
theorem wireBytes_length (p : Params) (f : Frame) : (wireBytes p f).length =
    (rawBytes f).length + (rawBytes f).countP (fun b => b == p.marker || b == p.esc) + 2 := by
  simp [wireBytes, stuffBytes_length]

/-- R132 (a): STUFF's output holds no marker. -/
theorem wireBytes_marker_iff {p : Params} (hp : p.valid = true) (f : Frame) (i : Nat) :
    (wireBytes p f)[i]? = some p.marker ↔ i = 0 ∨ i = (wireBytes p f).length - 1 := by
  rw [wireBytes, getElem?_wrapped_iff (marker_notMem_stuffBytes hp _)]
  simp

/-! ### DECODE of raw bytes, and the payload it can return -/

/-- R133 (a): W1 to W3 of R61 pass DECODE's tests, and the split gives the payload and its checksum back. -/
theorem decodeBytes_rawBytes {f : Frame} (hf : f.wellFormed = true) : decodeBytes (rawBytes f) = .frame f := by
  obtain ⟨hheader, hlayout, hsum⟩ := f.wellFormed_iff.mp hf
  obtain ⟨a, c, h, payload, checksum⟩ := f
  obtain rfl : h = a ^^^ c := hheader
  cases checksum with
  | none =>
    obtain rfl : payload = [] := hlayout.mpr rfl
    simp [rawBytes_control, decodeBytes_cons]
  | some k =>
    have hne : payload ≠ [] := fun he => nomatch hlayout.mp he
    obtain rfl : k = xorBytes payload := hsum k rfl
    simp [rawBytes_data _ _ _ _ hne, decodeBytes_cons, hne]

/-- R125: header, payload and payload checksum tile the bytes of a frame with a payload. -/
theorem decodeBytes_payload_length {d : List Byte} {f : Frame} (h : decodeBytes d = .frame f) :
    f.payload = [] ∨ f.payload.length + 4 = d.length := by
  match d with
  | [] | [_] | [_, _] => cases h
  | a :: c :: k :: tail =>
    rw [decodeBytes_cons] at h
    split_ifs at h with hk htail hsum hone <;> cases h
    · exact .inl rfl
    · exact .inl rfl
    · have : 0 < tail.length := List.length_pos_iff.mpr htail
      right
      simp only [List.length_dropLast, List.length_cons]
      omega

/-- R127: DESTUFF does not lengthen, so a payload decoded from a buffer is four bytes shorter at least. -/
theorem decodeWire_payload_length {p : Params} {x : List Byte} {f : Frame} (h : decodeWire p x = .frame f) :
    f.payload = [] ∨ f.payload.length + 4 ≤ x.length :=
  (decodeBytes_payload_length h).imp_right fun hlen => hlen.trans_le (destuffBytes_length p x).2

/-- Of the rows of RX_STEP only the end marker's returns a frame, the decode of the buffer (R157). -/
theorem takeRow_frame {row : RxRow} {s : State} {f : Frame} (h : (takeRow row s).out.result = .rx (.frame f)) :
    decodeWire s.params s.buf = .frame f := by
  cases row with
  | finish =>
    replace h : (decodeWire s.params s.buf).toRx = .frame f := Result.rx.inj h
    cases hd : decodeWire s.params s.buf with
    | frame g => rw [hd] at h; cases h; rfl
    | error k => rw [hd] at h; cases h
  | noByte | resync _ | start | noise | overflow _ | data _ | ignore _ => cases h

/-- A frame a receive instruction returns is the decode of the buffer it found. -/
theorem exec_frame {i : Instr} {s t : State} {f : Frame} (h : exec i s = .next t)
    (hr : t.out.result = .rx (.frame f)) : decodeWire s.params s.buf = .frame f := by
  rcases exec_next h with ⟨g, -, hg⟩ | ⟨-, -, r, rfl, hne⟩ | ⟨-, -, rfl⟩ | ⟨-, rfl⟩ | ⟨-, rfl⟩ | ⟨-, -, -, a, rfl⟩
  · obtain ⟨_, _, -, -, -, ⟨-, rfl⟩ | ⟨_, -, rfl⟩⟩ := execSend_next hg <;> cases hr
  · exact absurd hr (hne _)
  · cases hr
  · cases hr
  · have hd := takeRow_frame hr
    rwa [readByte_state] at hd
  · exact takeRow_frame hr

/-! ### The statements -/

/-- Settles O18: the header error is the first test's alone, and that test is whether the header's XOR is zero. -/
theorem headerErrorIffHeaderXorNonzero : Obligations.HeaderErrorIffHeaderXorNonzero := by
  intro s d hlen
  match d with
  | a :: c :: h :: tail =>
    have hiff := (exec_decode_eq_iff (s := s)).trans (decodeBytes_headerMismatch_iff a c h tail)
    refine ⟨hiff, hiff.trans (not_congr ?_)⟩
    exact eq_comm.trans BitVec.xor_eq_zero_iff.symm

/-- Settles O21: the two markers are put around STUFF's output, which holds none. -/
theorem wireMarkersOnlyAtTheEnds : Obligations.WireMarkersOnlyAtTheEnds := by
  intro s f hp hf
  obtain ⟨g, rfl, hg⟩ := EncodeResult.usable_iff.mp hf
  have hlen := wireBytes_length s.params g
  have hraw := three_le_length_rawBytes g
  exact ⟨_, _, exec_serialize hg s, exec_rawbytes hg s, hlen, by omega, wireBytes_marker_iff hp g⟩

/-- Settles O22: ENCODE's frame is well-formed, so DECODE undoes RAWBYTES, and DESTUFF undoes STUFF on any
sequence. -/
theorem decodeUndoesRawbytesOfEncode : Obligations.DecodeUndoesRawbytesOfEncode := by
  intro s t type address payload maxPayload f h hr
  obtain ⟨-, rfl⟩ | ⟨-, rfl⟩ := execEncode_next h <;> cases hr
  have hwf := buildFrame_wellFormed type address payload
  refine ⟨rfl, rfl, rfl, _, _, exec_rawbytes (Frame.layoutDefined_of_wellFormed hwf) s, ?_,
    exec_decode_eq_iff.mpr (decodeBytes_rawBytes hwf), exec_stuff s _, ?_⟩
  · rintro rfl
    rfl
  · rw [exec_destuff, destuffBytes_stuffBytes]

/-- Settles O42: the frame is the decode of the buffer, which holds at most `P.CAP` bytes. -/
theorem receivedPayloadFitsTheBuffer : Obligations.ReceivedPayloadFitsTheBuffer := by
  intro i s t f ⟨_, hcap, _⟩ h hr
  exact (decodeWire_payload_length (exec_frame h hr)).imp_right fun hlen =>
    Nat.le_sub_of_add_le (hlen.trans ((Memory.wf_iff _ _).mp hcap))

/-- Settles O19: the layouts W2 allows are a control frame and a payload with its checksum; a payload without one
violates W2. -/
theorem rawbytesLaysOutTheFrame : Obligations.RawbytesLaysOutTheFrame := by
  intro s a c h k payload
  refine ⟨?_, fun hne => ?_, fun hne => exec_rawbytes_refused ?_ s⟩
  · rw [exec_rawbytes (by simp [Frame.layoutDefined_iff]), rawBytes_control]
  · rw [exec_rawbytes (by simp [Frame.layoutDefined_iff, hne]), rawBytes_data _ _ _ _ hne]
    rfl
  · simp [Frame.layoutDefined_iff, hne]

/-- Settles O20: SERIALIZE accepts the frames RAWBYTES does, and both take the raw bytes of the one frame. -/
theorem serializeWrapsStuffedRawBytes : Obligations.SerializeWrapsStuffedRawBytes := by
  intro s f hf
  obtain ⟨g, rfl, hg⟩ := EncodeResult.usable_iff.mp hf
  exact ⟨_, _, exec_rawbytes hg s, exec_stuff s _, exec_serialize hg s⟩

end Sys2Proof.Machine


/-! PROOFS of spec/44_reassembler.md: what each row of RX_STEP does, that exactly one runs, and what a stream of
received bytes gives: overflow until the marker, loop-back, and the recovery of a frame without its start marker. -/

namespace Sys2Proof

/-! ### The instructions of a received answer -/

theorem RxRow.instr_wellFormed (row : RxRow) : row.instr.wellFormed = true := by
  cases row with
  | resync b =>
    by_cases h3 : b = 0x03#8 <;> simp [RxRow.instr, Instr.wellFormed, h3]
  | noByte | start | noise | finish | overflow _ | data _ | ignore _ => rfl

/-- R157, R158: the two forms of a decode's result, each with its flag and its answer. -/
theorem DecodeResult.isError_toRx_cases (r : DecodeResult) :
    (∃ f, r = .frame f ∧ r.isError = false ∧ r.toRx = .frame f) ∨
      (∃ k, r = .error k ∧ r.isError = true ∧ r.toRx = .error k) := by
  cases r with
  | frame f => exact .inl ⟨f, rfl, rfl, rfl⟩
  | error k => exact .inr ⟨k, rfl, rfl, rfl⟩

end Sys2Proof

namespace Sys2Proof.Machine

/-- An instruction that stands for an answer of the transport is a row's, and means that row on that answer. -/
theorem exec_of_encode_rx {s : State} {a : Option Byte} {j : Instr} (henc : encode s.params j = .rx a)
    (hwf : j.wellFormed = true) : ∃ row : RxRow, row.instr = j ∧ exec j s = rxUnit row a s := by
  cases j with
  | rxResync01 b => cases henc; exact ⟨.resync b, if_neg (bne_iff_ne.mp hwf), rfl⟩
  | rxResync03 => cases henc; exact ⟨.resync 0x03#8, rfl, rfl⟩
  | rxStart => cases henc; exact ⟨.start, rfl, rfl⟩
  | rxNoise => cases henc; exact ⟨.noise, rfl, rfl⟩
  | rxEnd => cases henc; exact ⟨.finish, rfl, rfl⟩
  | rxOverflow b => cases henc; exact ⟨.overflow b, rfl, rfl⟩
  | rxData b => cases henc; exact ⟨.data b, rfl, rfl⟩
  | rxIgnore b => cases henc; exact ⟨.ignore b, rfl, rfl⟩
  | rxNobyte => cases henc; exact ⟨.noByte, rfl, rfl⟩
  | _ => cases henc

/-! ### The selected row's transition -/

variable {s : State} {a : Option Byte} {b : Byte} {bs : List Byte} {f : Frame}

theorem exec_rxStep_row {row : RxRow} {rest : List (Option Byte)} (hrow : rxRow s.params s.rxContext a = row)
    (hrx : s.rx = a :: rest) : exec .rxStep s = .next (takeRow row { s with rx := rest }) := by
  subst hrow
  exact execRxStep_cons hrx

theorem rxTransition_row {row : RxRow} (hrow : rxRow s.params s.rxContext a = row) :
    rxTransition a s = takeRow row s := by
  subst hrow
  rfl

theorem marker_notMem_resync {p : Params} (hp : p.valid = true) : p.marker ∉ p.resync :=
  ((Params.valid_iff p).mp hp).2.2.1

/-- The end marker over a buffer that decodes to a frame (R157). -/
theorem takeRow_finish_frame (h : decodeWire s.params s.buf = .frame f) : takeRow .finish s =
    { s with fs := false, buf := [], fail := false, out := ⟨.rx (.frame f), false, none⟩ } := by
  simp only [takeRow, h]
  rfl

/-! ### A stream of received bytes -/

/-- The state after the bytes of a stream, one RX_STEP each, without the host's requests and the transport's lists. -/
def receive (s : State) (bs : List Byte) : State := bs.foldl (fun t b => rxTransition (some b) t) s

@[simp] theorem receive_nil (s : State) : receive s [] = s := rfl

theorem receive_cons (s : State) (b : Byte) (bs : List Byte) :
    receive s (b :: bs) = receive (rxTransition (some b) s) bs := rfl

theorem receive_concat (s : State) (bs : List Byte) (b : Byte) :
    receive s (bs ++ [b]) = rxTransition (some b) (receive s bs) := List.foldl_concat ..

theorem rxTransition_params (a : Option Byte) (s : State) : (rxTransition a s).params = s.params :=
  (takeRow_environment _ s).1

theorem rxTransition_setOut (a : Option Byte) (s : State) (o : Output) :
    rxTransition a { s with out := o } = rxTransition a s := takeRow_setOut _ s o

/-- A transition neither reads nor changes what the host has prepared. -/
theorem rxTransition_presentAll (a : Option Byte) (s : State) (ts : List Transaction) :
    rxTransition a (s.presentAll ts) = (rxTransition a s).presentAll ts := by
  show takeRow (rxRow s.params s.rxContext a) (s.presentAll ts) = _
  unfold rxTransition
  cases rxRow s.params s.rxContext a <;> rfl

theorem step_feed_cons (hp : s.params.valid = true) (b : Byte) (bs : List Byte) :
    step (s.presentAll (feed ((b :: bs).map some))) =
      .next ((rxTransition (some b) s).presentAll (feed (bs.map some))) := by
  rw [← rxTransition_presentAll]
  exact step_rxLine hp rfl

/-- A run over the lines of a feed receives as many of its bytes as it has steps. -/
theorem run_feed_take {k : Nat} (hp : s.params.valid = true) (hk : k ≤ bs.length) :
    Host.Core.run Sys2Proof.core k (s.presentAll (feed (bs.map some))) =
      .next ((receive s (bs.take k)).presentAll (feed ((bs.drop k).map some))) := by
  induction k generalizing s bs with
  | zero => rfl
  | succ k ih =>
    cases bs with
    | nil => cases hk
    | cons b bs =>
      rw [run_succ k (step_feed_cons hp b bs)]
      exact ih ((rxTransition_params (some b) s).symm ▸ hp) (Nat.le_of_succ_le_succ hk)

theorem run_feed {n : Nat} (hp : s.params.valid = true) (hn : n = bs.length) :
    Host.Core.run Sys2Proof.core n (s.presentAll (feed (bs.map some))) = .next (receive s bs) := by
  subst hn
  rw [run_feed_take hp le_rfl, List.take_length, List.drop_length]
  rfl

/-! ### Streams without a marker in Accumulating -/

/-- R160: while there is room, the bytes are appended in their order. -/
theorem receive_data (hfs : s.fs = true) (hfail : s.fail = false) (hout : s.out = ⟨.rx .incomplete, false, none⟩)
    (hm : s.params.marker ∉ bs) (hcap : s.buf.length + bs.length ≤ s.params.cap) :
    receive s bs = { s with buf := s.buf ++ bs } := by
  induction bs generalizing s with
  | nil => simp
  | cons b bs ih =>
    obtain ⟨hb, hbs⟩ := List.ne_and_not_mem_of_not_mem_cons hm
    rw [List.length_cons] at hcap
    have hroom : s.buf.length < s.params.cap := by omega
    have hrow : rxRow s.params s.rxContext (some b) = .data b := rxRow_data hb.symm (by simp [hfail]) hfs hroom
    have hrest : (s.buf ++ [b]).length + bs.length ≤ s.params.cap := by
      rw [List.length_append, List.length_singleton]
      omega
    rw [receive_cons, rxTransition_row hrow, ih (s := takeRow (.data b) s) hfs hfail rfl hbs hrest]
    simp [takeRow, State.answer, State.store, Memory.append, hout]

/-- R159, R164: with the buffer full, every byte is reported and dropped. -/
theorem receive_overflow (hfs : s.fs = true) (hfail : s.fail = false) (hcap : s.params.cap ≤ s.buf.length)
    (hm : s.params.marker ∉ bs) : receive s bs =
      { s with out := if bs = [] then s.out else ⟨.rx (.error .frameTooLarge), false, none⟩ } := by
  induction bs using List.reverseRecOn with
  | nil => rfl
  | append_singleton bs b ih =>
    obtain ⟨hbs, hb⟩ := not_or.mp (mt List.mem_append.mpr hm)
    have hrow : rxRow s.params s.rxContext (some b) = .overflow b :=
      rxRow_overflow (Ne.symm (mt List.mem_singleton.mpr hb)) (by simp [hfail]) hfs hcap
    rw [receive_concat, ih hbs, rxTransition_setOut, rxTransition_row hrow, if_neg (by simp)]
    rfl

theorem three_le_length_stuffed (p : Params) (f : Frame) : 3 ≤ (stuffBytes p (rawBytes f)).length := by
  rw [stuffBytes_length]
  exact (three_le_length_rawBytes f).trans (Nat.le_add_right _ _)

/-- R165, R166: in Accumulating, the rest of a frame's stuffed bytes and the end marker return the frame. -/
theorem receive_restOfFrame (hp : s.params.valid = true) (hfs : s.fs = true) (hfail : s.fail = false)
    (hout : s.out = ⟨.rx .incomplete, false, none⟩) (hf : f.wellFormed = true)
    (hbs : s.buf ++ bs = stuffBytes s.params (rawBytes f)) (hcap : s.buf.length + bs.length ≤ s.params.cap) :
    receive s (bs ++ [s.params.marker]) =
      { s with fs := false, buf := [], fail := false, out := ⟨.rx (.frame f), false, none⟩ } := by
  have hm : s.params.marker ∉ bs := fun h =>
    marker_notMem_stuffBytes hp (rawBytes f) (hbs ▸ List.mem_append_right s.buf h)
  have hlen : 2 ≤ (s.buf ++ bs).length := by
    rw [hbs]
    exact Nat.le_of_succ_le (three_le_length_stuffed s.params f)
  have hdecode : decodeWire s.params (s.buf ++ bs) = .frame f := by
    rw [decodeWire, hbs, destuffBytes_stuffBytes, decodeBytes_rawBytes hf]
  calc receive s (bs ++ [s.params.marker])
      = rxTransition (some s.params.marker) { s with buf := s.buf ++ bs } := by
        rw [receive_concat, receive_data hfs hfail hout hm hcap]
    _ = takeRow .finish { s with buf := s.buf ++ bs } :=
        rxTransition_row (rxRow_finish (marker_notMem_resync hp) hfs hlen)
    _ = _ := takeRow_finish_frame hdecode

/-- The wire form SERIALIZE answers for a frame (R130). -/
theorem serialize_wire {w : List Byte}
    (h : exec (.serialize (.frame f)) s = .next { s with out := ⟨.bytes w, false, none⟩ }) :
    w = s.params.marker :: (stuffBytes s.params (rawBytes f) ++ [s.params.marker]) := by
  obtain ⟨_, hg, -, hout⟩ := execSerialize_next h
  cases hg
  exact Result.bytes.inj (congrArg (·.out.result) hout)

/-! ### Several instances -/

/-- Everything a step of a bank can do: one member's own step, put in its place (R170). -/
theorem Bank.step_next {bank bank' : Bank} {k : Nat} (h : Bank.step bank k = .next bank') :
    ∃ s t, bank[k]? = some s ∧ Sys2Proof.Machine.step s = .next t ∧ bank' = bank.set k t := by
  unfold Bank.step at h
  cases hs : bank[k]? with
  | none => simp [hs] at h
  | some s =>
    cases ht : Sys2Proof.Machine.step s with
    | next t =>
      simp only [hs, ht, Host.Outcome.next.injEq] at h
      exact ⟨s, t, rfl, ht, h.symm⟩
    | fault r => cases r
    | refused r => simp [hs, ht] at h

/-! ### The statements -/

/-- Settles O40: the start marker empties the buffer, which then collects the stuffed bytes; the end marker decodes
them, and DESTUFF undoes STUFF. -/
theorem loopbackReceivesTheFrame : Obligations.LoopbackReceivesTheFrame := by
  intro s f w hp hfs hf hw hcap
  obtain rfl := serialize_wire hw
  have hstart : rxTransition (some s.params.marker) s = (s.beginFrame []).answer (.rx .incomplete) :=
    rxTransition_row (rxRow_start (marker_notMem_resync hp) hfs)
  replace hcap : (stuffBytes s.params (rawBytes f)).length ≤ s.params.cap := by simpa using hcap
  refine ⟨fun k hpos hk => ?_, ?_⟩
  · obtain ⟨j, rfl⟩ := Nat.exists_eq_add_one.mpr hpos
    have hj : j ≤ (stuffBytes s.params (rawBytes f)).length := by simpa using hk
    refine ⟨_, run_feed_take hp hk.le, ?_⟩
    rw [List.take_succ_cons, List.take_append_of_le_length hj, receive_cons, hstart, receive_data rfl rfl rfl]
    · rfl
    · exact fun h => marker_notMem_stuffBytes hp _ (List.mem_of_mem_take h)
    · simpa using .inr hcap
  · refine (run_feed hp rfl).trans (congrArg _ ?_)
    rw [receive_cons, hstart]
    exact receive_restOfFrame (s := (s.beginFrame []).answer (.rx .incomplete)) hp rfl rfl rfl hf rfl
      (by simpa using hcap)

/-- Settles O41: the first stuffed byte is the resync byte, which seeds the buffer as the start of the frame. -/
theorem recoveryReceivesAFrameWithoutItsStart : Obligations.RecoveryReceivesAFrameWithoutItsStart := by
  intro s f b rest hp hfail hf hb hw hcap
  obtain ⟨c, bs, hbs⟩ : ∃ c bs, stuffBytes s.params (rawBytes f) = c :: bs :=
    List.exists_cons_of_length_pos (Nat.zero_lt_of_lt (three_le_length_stuffed s.params f))
  obtain ⟨rfl, rfl⟩ : b = c ∧ rest = bs ++ [s.params.marker] := by simpa [hbs] using serialize_wire hw
  have hresync : rxTransition (some b) s = (s.beginFrame [b]).answer (.rx .incomplete) :=
    rxTransition_row (rxRow_resync hfail hb)
  refine (run_feed (bs := b :: (bs ++ [s.params.marker])) hp rfl).trans (congrArg _ ?_)
  rw [receive_cons, hresync]
  exact receive_restOfFrame (s := (s.beginFrame [b]).answer (.rx .incomplete)) hp rfl rfl rfl hf hbs.symm
    (by simpa [Nat.add_comm] using hcap)

/-- Settles O30: the buffer's decode is an error or a frame, and gives the flag and the answer. -/
theorem endMarkerDecodesTheBuffer : Obligations.EndMarkerDecodesTheBuffer := by
  intro s hp hfs hlen
  have hrow : rxRow s.params s.rxContext (some s.params.marker) = .finish :=
    rxRow_finish (marker_notMem_resync hp) hfs hlen
  exact ⟨_, _, _, _, exec_destuff s s.buf, exec_decode s _, DecodeResult.isError_toRx_cases _, rxUnit_selected hrow,
    fun _ => exec_rxStep_row hrow⟩

/-- Settles O36: the selected row's instruction runs, and any other instruction of the answer is another row's. -/
theorem exactlyOneRowRuns : Obligations.ExactlyOneRowRuns := by
  intro s a _
  refine ⟨(rxRow s.params s.rxContext a).instr, (rxRow_instr _ _ a).2, RxRow.instr_wellFormed _,
    ⟨_, exec_selectedRow s a⟩, fun j henc hwf hne => ?_⟩
  obtain ⟨row, rfl, hexec⟩ := exec_of_encode_rx henc hwf
  rw [hexec]
  exact rxUnit_unselected fun h => hne (congrArg RxRow.instr h.symm)

/-- Settles O39: the dropped bytes leave the buffer as it was, and the marker decodes it. -/
theorem overflowRepeatsUntilTheMarker : Obligations.OverflowRepeatsUntilTheMarker := by
  intro s bs hp hfs hfail hcap hm
  obtain ⟨-, -, -, -, h3⟩ := (Params.valid_iff s.params).mp hp
  refine ⟨fun k hpos hk => ?_, ?_⟩
  · refine ⟨_, run_feed_take hp (by simp; omega), ?_⟩
    have hne : bs.take k ≠ [] := by
      rw [← List.length_pos_iff, List.length_take]
      omega
    rw [List.take_append_of_le_length hk,
      receive_overflow hfs hfail hcap fun h => hm (List.mem_of_mem_take h), if_neg hne]
    exact ⟨hfs, hfail, rfl, rfl⟩
  · have hrow : rxRow s.params s.rxContext (some s.params.marker) = .finish :=
      rxRow_finish (marker_notMem_resync hp) hfs (by simp; omega)
    have hend : receive s (bs ++ [s.params.marker]) = takeRow .finish s := by
      rw [receive_concat, receive_overflow hfs hfail hcap hm, rxTransition_setOut, rxTransition_row hrow]
    exact ⟨takeRow .finish s, (run_feed hp (by simp)).trans (congrArg _ hend), rfl, rfl, rfl, rfl⟩

/-- Settles O26: the row of "not available" is selected in every state. -/
theorem noByteChangesNothing : Obligations.NoByteChangesNothing :=
  fun _ => ⟨rxUnit_selected rxRow_none, fun _ => exec_rxStep_row rxRow_none⟩

/-- Settles O29: the marker's row is the noise row. -/
theorem noiseMarkerHasNoEffect : Obligations.NoiseMarkerHasNoEffect := by
  intro s hp hfs hlen
  have hrow : rxRow s.params s.rxContext (some s.params.marker) = .noise :=
    rxRow_noise (marker_notMem_resync hp) hfs hlen
  exact ⟨rxUnit_selected hrow, fun _ => exec_rxStep_row hrow⟩

/-- Settles O32: the byte's row is the data row. -/
theorem dataByteIsAppended : Obligations.DataByteIsAppended := by
  intro s b hfs hlen hb hresync
  have hrow : rxRow s.params s.rxContext (some b) = .data b := rxRow_data hb hresync hfs hlen
  exact ⟨rxUnit_selected hrow, fun _ => exec_rxStep_row hrow⟩

/-- Settles O49: the bank is changed at the one place that made the step. -/
theorem instancesAreIndependent : Obligations.InstancesAreIndependent := by
  intro bank bank' k h
  obtain ⟨s, t, hs, ht, rfl⟩ := Bank.step_next h
  obtain ⟨hk, -⟩ := List.getElem?_eq_some_iff.mp hs
  exact ⟨⟨s, t, hs, ht, List.getElem?_set_self hk⟩, List.length_set, fun j hj => List.getElem?_set_ne hj.symm⟩

end Sys2Proof.Machine


/-! PROOFS of spec/60_exceptions.md: DECODE's tests in their order, what SEND hands on, and that every selected
instruction answers. -/

namespace Sys2Proof.Machine

/-! ### DECODE over the indices of its operand -/

/-- R125: the payload stands between the header and the last byte. -/
theorem take_drop_header (a c h : Byte) (tail : List Byte) :
    ((a :: c :: h :: tail).drop 3).take ((a :: c :: h :: tail).length - 4) = tail.dropLast := by
  simp [List.dropLast_eq_take]

/-- R123: the payload's XOR, index by index. -/
theorem xorBytes_dropLast_eq_foldl (a c h : Byte) (tail : List Byte) : xorBytes tail.dropLast =
    (List.range' 3 ((a :: c :: h :: tail).length - 4)).foldl
      (fun acc i => acc ^^^ (a :: c :: h :: tail).getD i 0x00#8) 0x00#8 := by
  rw [← take_drop_header a c h]
  exact xorBytes_byteRange (by simp; omega)

theorem getD_last_eq_getLastD (a c h : Byte) {tail : List Byte} (hne : tail ≠ []) :
    (a :: c :: h :: tail).getD ((a :: c :: h :: tail).length - 1) 0x00#8 = tail.getLastD 0x00#8 := by
  rw [List.getD_eq_getElem?_getD, ← List.getLast?_eq_getElem?, List.getLastD_eq_getLast?]
  simp [List.getLast?_cons, List.getLast?_eq_some_getLast hne]

/-! ### SEND on a usable frame -/

theorem exec_send {g : Frame} (hg : g.layoutDefined = true) (s : State) :
    exec (.send (.frame g)) s = writeBytes (wireBytes s.params g) s := if_pos hg

/-- The transport keeps nothing of a call it answers with Error (R42, log entry 7). -/
theorem State.wrote_error (s : State) (w : List Byte) :
    s.wrote w .error = { s with out := ⟨.write .error, false, some (w, w.length)⟩ } := by
  simp [State.wrote, acceptedBytes]

variable {s : State}

/-- `writeBytes` answers unless the listed answer claims more bytes than it was given (R209, U9). -/
theorem writeBytes_completes {w : List Byte} (h : ∀ n, s.wr.head? = some (.written n) → n ≤ w.length) :
    ∃ t, writeBytes w s = .next t := by
  cases hwr : s.wr with
  | nil => exact ⟨_, writeBytes_free hwr⟩
  | cons a rest =>
    refine ⟨_, writeBytes_listed hwr ?_⟩
    cases a with
    | written n => exact decide_eq_true (h n (by rw [hwr]; rfl))
    | error => rfl

/-! ### Every decoded instruction answers -/

/-- An operation on well-formed operands answers. -/
theorem exec_completes_of_opRow {select : BitVec 4} {operands : Operands} {i : Instr} (h : OpRow select operands i)
    (hwf : i.wellFormed = true)
    (hsend : ∀ f n, i = .send (.frame f) → s.wr.head? = some (.written n) → n ≤ (wireBytes s.params f).length) :
    ∃ t, exec i s = .next t := by
  cases h with
  | stuff _ | destuff _ | decode _ | rxStep | rxReset => exact ⟨_, rfl⟩
  | checksum _ _ _ => exact ⟨_, exec_checksum (of_decide_eq_true hwf) s⟩
  | encode _ _ payload maxPayload =>
    by_cases hlong : payload.length > maxPayload
    · exact ⟨_, if_pos hlong⟩
    · exact ⟨_, if_neg hlong⟩
  | rawbytes _ =>
    obtain ⟨g, rfl, hg⟩ := EncodeResult.usable_iff.mp hwf
    exact ⟨_, exec_rawbytes hg s⟩
  | serialize _ =>
    obtain ⟨g, rfl, hg⟩ := EncodeResult.usable_iff.mp hwf
    exact ⟨_, exec_serialize hg s⟩
  | send _ =>
    obtain ⟨g, rfl, hg⟩ := EncodeResult.usable_iff.mp hwf
    rw [exec_send hg]
    exact writeBytes_completes fun n => hsend g n rfl

/-- The decoder's row of a transaction runs: an operation unless its code is reserved, and any byte-class row. -/
theorem exec_completes_of_decode {w : Transaction} {i : Instr} (h : decode s.params s.rxContext w = .ok i)
    (hwf : i.wellFormed = true) (hcode : ∀ code, i ≠ .reservedOp code)
    (hsend : ∀ f n, i = .send (.frame f) → s.wr.head? = some (.written n) → n ≤ (wireBytes s.params f).length) :
    ∃ t, exec i s = .next t := by
  cases w with
  | op select operands =>
    rcases decodeOp_cases select operands with ⟨j, hrow, e⟩ | ⟨-, e⟩ | ⟨-, e⟩ <;> cases e.symm.trans h
    · exact exec_completes_of_opRow hrow hwf hsend
    · exact absurd rfl (hcode select)
  | rx a => cases h; exact ⟨_, exec_selectedRow s a⟩
  | stuffUnit b => cases h; exact ⟨_, exec_stuffRow s b⟩
  | destuffUnit scan =>
    obtain ⟨row, hrow, rfl⟩ := destuffRow_of_decode h
    exact ⟨_, exec_destuffRow hrow⟩

/-! ### The statements -/

/-- Settles O17: DECODE's tests over the header and what follows it are those over the operand's indices. -/
theorem decodeTestsInOrder : Obligations.DecodeTestsInOrder := by
  intro s d
  refine exec_decode_eq_iff.mpr ?_
  match d with
  | [] | [_] | [_, _] => rfl
  | a :: c :: h :: tail =>
    rw [decodeBytes_cons, if_neg (show ¬ (a :: c :: h :: tail).length < 3 by simp)]
    refine if_congr Iff.rfl rfl ?_
    have hthree : (a :: c :: h :: tail).length = 3 ↔ tail = [] := by simp
    by_cases htail : tail = []
    · rw [if_pos htail, if_pos (hthree.mpr htail)]
      rfl
    · have hpos : 0 < tail.length := List.length_pos_iff.mpr htail
      have hfour : tail.length = 1 ↔ (a :: c :: h :: tail).length - 4 = 0 := by simp; omega
      rw [if_neg htail, if_neg (mt hthree.mp htail), ← xorBytes_dropLast_eq_foldl, getD_last_eq_getLastD a c h htail,
        take_drop_header]
      exact if_congr Iff.rfl rfl (if_congr hfour rfl rfl)

/-- Settles O24: SEND is the one `writeBytes` call of SERIALIZE's bytes, with the answer listed or a free one. -/
theorem sendWritesTheWireFrameOnce : Obligations.SendWritesTheWireFrameOnce := by
  intro s f hf
  obtain ⟨g, rfl, hg⟩ := EncodeResult.usable_iff.mp hf
  refine ⟨_, exec_serialize hg s, ?_⟩
  rw [exec_send hg]
  refine ⟨fun n rest hwr hn => writeBytes_listed hwr (decide_eq_true hn), fun rest hwr => ?_, fun hwr => ?_⟩
  · rw [writeBytes_listed hwr rfl, State.wrote_error]
  · have hallowed := freeWriteAnswer_allowed s.free (wireBytes s.params g).length
    rw [writeBytes_free hwr]
    generalize freeWriteAnswer s.free (wireBytes s.params g).length = a at hallowed ⊢
    cases a with
    | written n => exact .inl ⟨n, of_decide_eq_true hallowed, rfl⟩
    | error => exact .inr (by rw [State.wrote_error])

/-- Settles O47: a well-formed selected instruction is what its own transaction decodes to, and what decodes runs. -/
theorem everySelectedOperationCompletes : Obligations.EverySelectedOperationCompletes := by
  intro i s hp hwf hsel hcode hsend
  obtain ⟨hesc, -, hresync, -⟩ := (Params.valid_iff s.params).mp hp
  exact exec_completes_of_decode (decode_encode hesc hresync hwf hsel) hwf hcode hsend

end Sys2Proof.Machine


/-! PROOFS of spec/70_reset_and_hazards.md: what RX_RESET and power-on leave of the reassembler. -/

namespace Sys2Proof.Machine

/-- R168: RX_RESET ends the frame attempt as a good frame does, and returns nothing. -/
theorem exec_rxReset (s : State) : exec .rxReset s = .next ((s.endFrame false).answer .nothing) := rfl

/-- The end of a frame attempt and an answer write `fs`, `buf`, `fail` and the result port, and no other field. -/
theorem State.endFrame_answer (s : State) (failed : Bool) (r : Result) : (s.endFrame failed).answer r =
    { s with fs := false, buf := [], fail := failed, out := ⟨r, false, none⟩ } := rfl

/-- Settles O38: RX_RESET is the end of a frame attempt with the failure flag clear, and the answer "nothing". -/
theorem rxResetClearsTheReassembler : Obligations.RxResetClearsTheReassembler := by
  intro s
  rw [exec_rxReset, State.endFrame_answer]

/-- Settles O57: power-on and the end of a frame attempt without failure give the reassembler the same three values. -/
theorem resetIsIdleEmptyClear : Obligations.ResetIsIdleEmptyClear :=
  ⟨rfl, rfl, rfl, fun s => ⟨_, rxResetClearsTheReassembler s, rfl, rfl, rfl⟩⟩

end Sys2Proof.Machine


/-! PROOFS of spec/92_eei_decisions.md: the statements that rest on the spec's own choices, which are the state an error
leaves, ENCODE's failure, the operands and codes that are refused, three rows of RX_STEP, and the codes of the status
port. -/

namespace Sys2Proof

/-! ### The codes of the status port -/

theorem ErrKind.code_inj {j k : ErrKind} : j.code = k.code ↔ j = k := by
  cases j <;> cases k <;> decide

theorem RxResult.status_iff (r : RxResult) :
    (r.status = 0b00 ↔ r = .noByteAvailable) ∧ (r.status = 0b01 ↔ r = .incomplete) ∧
      (r.status = 0b10 ↔ ∃ f, r = .frame f) ∧ (r.status = 0b11 ↔ ∃ k, r = .error k) := by
  cases r <;> simp [RxResult.status]

end Sys2Proof

namespace Sys2Proof.Machine

variable {i : Instr} {s t : State}

theorem statusPort_eq_iff {r : RxResult} (hr : t.out.result = .rx r) {c : BitVec 2} :
    t.statusPort = some c ↔ r.status = c := by
  simp [State.statusPort, hr]

/-- The error-kind bits tell the errors apart, and are given for an error alone (R65, R190). -/
theorem errkindPort_eq_iff {r : RxResult} (hr : t.out.result = .rx r) {k : ErrKind} :
    t.errkindPort = some k.code ↔ r = .error k := by
  cases r with
  | error j => simp [State.errkindPort, hr, ErrKind.code_inj]
  | noByteAvailable | incomplete | frame _ => simp [State.errkindPort, hr]

/-! ### Where a result comes from -/

theorem takeRow_result (row : RxRow) (s : State) : ∃ r, (takeRow row s).out.result = .rx r := by
  cases row <;> exact ⟨_, rfl⟩

/-- A result of RX_STEP on the port is the selected row's, in the state the answer was read in: of the state before,
only the transport's list and the free counter can differ there. -/
theorem exec_rxResult {r : RxResult} (h : exec i s = .next t) (hr : t.out.result = .rx r) :
    ∃ a rx free, t = takeRow (rxRow s.params s.rxContext a) { s with rx := rx, free := free } := by
  rcases exec_next h with ⟨f, -, hf⟩ | ⟨-, -, x, rfl, hx⟩ | ⟨-, -, rfl⟩ | ⟨-, rfl⟩ | ⟨-, rfl⟩ | ⟨-, -, -, a, rfl⟩
  · obtain ⟨_, _, -, -, -, ⟨-, rfl⟩ | ⟨_, -, rfl⟩⟩ := execSend_next hf <;> cases hr
  · exact absurd hr (hx r)
  · cases hr
  · cases hr
  · rw [readByte_state]
    exact ⟨_, _, _, rfl⟩
  · exact ⟨a, s.rx, s.free, rfl⟩

/-- The receive side answers with a result of RX_STEP, or, as RX_RESET, with nothing. -/
theorem exec_receive_result (hi : i.receives = true) (h : exec i s = .next t) :
    t.out.result = .nothing ∨ ∃ r, t.out.result = .rx r := by
  rcases exec_next h with ⟨f, rfl, -⟩ | ⟨hn, -⟩ | ⟨hn, -⟩ | ⟨-, rfl⟩ | ⟨-, rfl⟩ | ⟨-, -, -, a, rfl⟩
  · cases hi
  · rw [hi] at hn; cases hn
  · rw [hi] at hn; cases hn
  · exact .inl rfl
  · exact .inr (takeRow_result _ _)
  · exact .inr (takeRow_result _ _)

/-- A step whose result is not the receive side's leaves the reassembler alone. -/
theorem exec_keeps_of_result (h : exec i s = .next t) (hnothing : t.out.result ≠ .nothing)
    (hrx : ∀ r, t.out.result ≠ .rx r) : t.fs = s.fs ∧ t.buf = s.buf ∧ t.fail = s.fail := by
  have hi : i.receives = false := by
    by_contra hi
    rcases exec_receive_result (eq_true_of_ne_false hi) h with e | ⟨r, e⟩
    · exact hnothing e
    · exact hrx r e
  obtain ⟨hfs, hfail, hbuf⟩ := exec_sameReassembler hi h
  exact ⟨hfs, Memory.ext hbuf, hfail⟩

/-! ### The errors of the receive side -/

/-- Of the rows of RX_STEP two answer an error: the end marker, over a buffer whose decode fails, and the overflow, in
Accumulating with the buffer full (R157, R159). -/
theorem takeRow_error {a : Option Byte} {k : ErrKind}
    (h : (takeRow (rxRow s.params s.rxContext a) s).out.result = .rx (.error k)) :
    (rxRow s.params s.rxContext a = .finish ∧ decodeWire s.params s.buf = .error k) ∨
      (∃ b, rxRow s.params s.rxContext a = .overflow b ∧ k = .frameTooLarge ∧ s.fs = true ∧
        s.params.cap ≤ s.buf.length) := by
  cases a with
  | none => cases h
  | some b =>
    rcases rxRow_cases s.params s.rxContext b with ⟨-, -, e⟩ | ⟨-, ⟨-, -, e⟩ | ⟨-, -, -, e⟩ | ⟨-, -, -, e⟩ |
      ⟨-, hfs, hl, e⟩ | ⟨-, -, -, e⟩ | ⟨-, -, e⟩⟩ <;> rw [e] at h ⊢
    · cases h
    · cases h
    · cases h
    · refine .inl ⟨rfl, ?_⟩
      replace h : (decodeWire s.params s.buf).toRx = .error k := Result.rx.inj h
      cases hd : decodeWire s.params s.buf with
      | frame f => rw [hd] at h; cases h
      | error j => rw [hd] at h; cases h; rfl
    · cases h
      exact .inr ⟨b, rfl, rfl, hfs, hl⟩
    · cases h
    · cases h

/-- R201: the state after an error of a receive instruction. A decode error ends the frame attempt with the failure
flag set; an overflow changes nothing. -/
theorem exec_rxError {k : ErrKind} (h : exec i s = .next t) (hr : t.out.result = .rx (.error k)) :
    ((k = .headerChecksumMismatch ∨ k = .payloadChecksumMismatch ∨ k = .frameTooShort) ∧
      t.fs = false ∧ t.buf = [] ∧ t.fail = true) ∨
    (k = .frameTooLarge ∧ s.fs = true ∧ s.params.cap ≤ s.buf.length ∧ t.fs = s.fs ∧ t.buf = s.buf ∧
      t.fail = s.fail) := by
  obtain ⟨a, rx, free, rfl⟩ := exec_rxResult h hr
  rcases takeRow_error (s := { s with rx := rx, free := free }) hr with ⟨hrow, hd⟩ | ⟨b, hrow, rfl, hfs, hl⟩
  · refine .inl ⟨decodeBytes_error hd, ?_⟩
    replace hrow : rxRow s.params s.rxContext a = .finish := hrow
    replace hd : decodeWire s.params s.buf = .error k := hd
    rw [hrow]
    exact ⟨rfl, rfl, congrArg DecodeResult.isError hd⟩
  · replace hrow : rxRow s.params s.rxContext a = .overflow b := hrow
    rw [hrow]
    exact .inr ⟨rfl, hfs, hl, rfl, rfl, rfl⟩

/-! ### ENCODE, and the refusals of the operations -/

theorem exec_encode_fits {payload : List Byte} {maxPayload : Nat} (h : payload.length ≤ maxPayload)
    (type address : Byte) (s : State) : exec (.encode type address payload maxPayload) s =
      .next { s with out := ⟨.encoded (.frame (buildFrame type address payload)), false, none⟩ } :=
  if_neg (Nat.not_lt.mpr h)

theorem exec_encode_tooLong {payload : List Byte} {maxPayload : Nat} (h : maxPayload < payload.length)
    (type address : Byte) (s : State) : exec (.encode type address payload maxPayload) s =
      .next { s with out := ⟨.encoded .payloadTooLarge, true, none⟩ } := if_pos h

theorem exec_checksum_refused {buffer : List Byte} {start length : Nat} (h : buffer.length < start + length)
    (s : State) : exec (.checksum buffer start length) s = .refused .checksumOutOfRange :=
  if_neg fun hin => absurd h (Nat.not_lt.mpr (of_decide_eq_true hin))

theorem exec_serialize_refused {g : Frame} (hg : ¬ g.layoutDefined = true) (s : State) :
    exec (.serialize (.frame g)) s = .refused .frameLayoutUndefined := if_neg hg

theorem exec_send_refused {g : Frame} (hg : ¬ g.layoutDefined = true) (s : State) :
    exec (.send (.frame g)) s = .refused .frameLayoutUndefined := if_neg hg

/-! ### The statements -/

/-- Settles O45: a receive error is the end marker's or the overflow's; DECODE's and ENCODE's results are not of the
receive side. -/
theorem stateAfterEachError : Obligations.StateAfterEachError := by
  intro i s t h
  refine ⟨fun k hr => ?_, fun k hr => ?_, fun hr => ?_⟩
  · refine (exec_rxError h hr).imp_right ?_
    rintro ⟨hk, hs, hl, hfs, hbuf, hfail⟩
    exact ⟨hk, hs, hfs.trans hs, hl, hbuf, hfail⟩
  · exact exec_keeps_of_result h (by simp [hr]) (by simp [hr])
  · exact exec_keeps_of_result h (by simp [hr]) (by simp [hr])

/-- Settles O15: ENCODE's two branches; the checksum it stores is the one CHECKSUM answers for the whole payload. -/
theorem encodeBuildsTheFrame : Obligations.EncodeBuildsTheFrame := by
  intro s type address payload maxPayload
  refine ⟨fun h => ⟨(buildFrame type address payload).payloadChecksum, exec_encode_fits h type address s, ?_, ?_⟩,
    fun h => exec_encode_tooLong h type address s⟩
  · rintro rfl
    rfl
  · intro hne
    exact ⟨_, if_neg (mt List.length_eq_zero_iff.mp hne), exec_checksum (Nat.zero_add _).le s⟩

/-- Settles O25: each refusal by the operand's check that raises it. -/
theorem undefinedOperandsAreRefused : Obligations.UndefinedOperandsAreRefused := by
  intro s
  refine ⟨fun _ _ _ h => exec_checksum_refused h s, ?_, fun g i hg hi => ?_, fun g n rest hg hwr hn => ?_⟩
  · rintro i (rfl | rfl | rfl) <;> rfl
  · have hlayout : ¬ g.layoutDefined = true := mt g.layoutDefined_iff.mp hg
    rcases hi with rfl | rfl | rfl
    · exact exec_rawbytes_refused hlayout s
    · exact exec_serialize_refused hlayout s
    · exact exec_send_refused hlayout s
  · rw [exec_send (g.layoutDefined_iff.mpr hg)]
    exact writeBytes_refused hwr (decide_eq_false (Nat.not_le.mpr hn))

/-- Settles O28: the marker's row is the start row. -/
theorem startMarkerBeginsAFrame : Obligations.StartMarkerBeginsAFrame := by
  intro s hp hfs
  have hrow : rxRow s.params s.rxContext (some s.params.marker) = .start :=
    rxRow_start (marker_notMem_resync hp) hfs
  exact ⟨rxUnit_selected hrow, fun _ => exec_rxStep_row hrow⟩

/-- Settles O31: the byte's row is the overflow row. -/
theorem overflowDiscardsTheByte : Obligations.OverflowDiscardsTheByte := by
  intro s b hfs hcap hb hresync
  have hrow : rxRow s.params s.rxContext (some b) = .overflow b := rxRow_overflow hb hresync hfs hcap
  exact ⟨rxUnit_selected hrow, fun _ => exec_rxStep_row hrow⟩

/-- Settles O33: the byte's row is the ignore row. -/
theorem idleByteIsIgnored : Obligations.IdleByteIsIgnored := by
  intro s b hfs hb hresync
  have hrow : rxRow s.params s.rxContext (some b) = .ignore b := rxRow_ignore hb hresync hfs
  exact ⟨rxUnit_selected hrow, fun _ => exec_rxStep_row hrow⟩

/-- Settles O50: the operation map gives a reserved code its row whatever the operands, and that row has no effect. -/
theorem reservedCodesAreRefused : Obligations.ReservedCodesAreRefused :=
  fun _ _ _ hcode => ⟨decodeOp_reserved hcode, rfl⟩

/-- Settles O51: the codes tell the results apart, and no receive instruction reports ENCODE's error. -/
theorem statusPortShowsTheResult : Obligations.StatusPortShowsTheResult := by
  intro i s t r h hr
  have hkind : ∀ k : ErrKind, t.errkindPort = some k.code ↔ r = .error k := fun _ => errkindPort_eq_iff hr
  obtain ⟨hnone, hincomplete, hframe, herror⟩ := RxResult.status_iff r
  have hstatus : ∀ c, t.statusPort = some c ↔ r.status = c := fun _ => statusPort_eq_iff hr
  refine ⟨(hstatus _).trans hnone, (hstatus _).trans hincomplete, (hstatus _).trans hframe, (hstatus _).trans herror,
    hkind .headerChecksumMismatch, hkind .payloadChecksumMismatch, hkind .frameTooLarge, fun hport => ?_,
    hkind .frameTooShort⟩
  obtain rfl := (hkind .payloadTooLargeForEncode).mp hport
  rcases exec_rxError h hr with ⟨hk, -⟩ | ⟨hk, -⟩ <;> simp at hk

end Sys2Proof.Machine
